-- ==== Sys2Proof/Word.lean ====
section
/-! DEFINITION. The words of the part: a byte of a frame (10 R167), a 16-bit sample, coefficient, CRC or
run number (11 R184), and the 32-bit trigger head of a result record (04 Table 4-1). -/

namespace Sys2Proof

/-- One byte on a host port, and an 8-bit sequence number modulo 256 (10 R167). -/
abbrev Byte := BitVec 8

/-- A 16-bit quantity: a sample, a coefficient, a CRC-16, a run number modulo 65536 (11 R184). -/
abbrev Word16 := BitVec 16

/-- A 32-bit quantity: the low 32 bits of a trigger head (04 Table 4-1). -/
abbrev Word32 := BitVec 32

end Sys2Proof
end

