-- ==== Sys2Proof/Syntax.lean ====
section
/-! DEFINITION. The commands of the part: one constructor for each row of spec/opcode_table.json.

A row is a happening (00 "Happenings"). What comes in over a wire is an operand. The execution of a
queued command has the executing session as its operand: the command's sequence number, code and
arguments are held in that session's command queue as received, and are read at the execution
(08 R143, R145; log 1). -/

namespace Sys2Proof

/-- The two host ports and their sessions, U and S (00 "Conventions", 08 R131). -/
inductive Port where
  | u
  | s
deriving DecidableEq, Repr

/-- The level of an input pin (10 Table 10-4). -/
inductive Level where
  | low
  | high
deriving DecidableEq, Repr

/-- The levels that the lines of the host ports show at the release of RSTN: URX, where high is mark
(10 R171), and SSEL, where low selects (10 R175). -/
structure Lines where
  urx : Level
  ssel : Level
deriving DecidableEq, Repr

/-- One SP_CLK period at the sample port: whether SP_FRM marks a first bit in it, and the bit on SP_DAT
(01 R9). -/
structure SpPeriod where
  mark : Bool
  bit : Bool
deriving DecidableEq, Repr

/-- The commands, in the order of spec/opcode_table.json. -/
inductive Instr where
  /-- RSTN, R181: the reset pulse, with the levels that BAUD (R171) and the lines of the host ports show
  at its release. -/
  | rstn (baud : Level) (lines : Lines)
  /-- SAMPLE_ARRIVAL, R12: SP_CLK periods of the sample port (R9), in order; each word whose eighteenth
  bit they take arrives (log 19). -/
  | sampleArrival (periods : List SpPeriod)
  /-- SEGMENT_END, R61: the run in flight reaches a non-final segment end. -/
  | segmentEnd
  /-- RUN_END, R65: the run in flight has added its last product. -/
  | runEnd
  /-- FRAME_RESOLUTION, R169: the second check byte of a frame is taken on a port. -/
  | frameResolution (p : Port) (last : Byte)
  /-- FRAME_LENGTH_ERROR, R168: a LEN byte above 248 is taken on a port. -/
  | frameLengthError (p : Port) (len : Byte)
  /-- HELLO, R133: the second check byte of a HELLO frame is taken on a port. -/
  | hello (p : Port) (last : Byte)
  /-- BAD_KIND, R185: the execution of a command whose code is unknown. -/
  | badKind (x : Port)
  /-- BYE, R147. -/
  | bye (x : Port)
  /-- STATUS, R148. -/
  | status (x : Port)
  /-- RING_CREATE, R17. -/
  | ringCreate (x : Port)
  /-- RING_DELETE, R18. -/
  | ringDelete (x : Port)
  /-- RING_FLUSH, R19. -/
  | ringFlush (x : Port)
  /-- RING_WRITE, R15. -/
  | ringWrite (x : Port)
  /-- RING_READ, R20. -/
  | ringRead (x : Port)
  /-- RING_QUERY, R21. -/
  | ringQuery (x : Port)
  /-- SET_BEGIN, R109. -/
  | setBegin (x : Port)
  /-- SET_DATA, R111. -/
  | setData (x : Port)
  /-- SET_END, R113. -/
  | setEnd (x : Port)
  /-- SET_ABORT, R114. -/
  | setAbort (x : Port)
  /-- SET_DELETE, R115. -/
  | setDelete (x : Port)
  /-- SET_QUERY, R116. -/
  | setQuery (x : Port)
  /-- MEM_QUERY, R128. -/
  | memQuery (x : Port)
  /-- JOB_DEFINE, R28. -/
  | jobDefine (x : Port)
  /-- JOB_ARM, R32. -/
  | jobArm (x : Port)
  /-- JOB_START, R38. -/
  | jobStart (x : Port)
  /-- JOB_CANCEL, R42. -/
  | jobCancel (x : Port)
  /-- JOB_DELETE, R45. -/
  | jobDelete (x : Port)
  /-- JOB_QUERY, R47. -/
  | jobQuery (x : Port)
  /-- JOB_WATCH, R91. -/
  | jobWatch (x : Port)
  /-- FETCH, R79. -/
  | fetch (x : Port)
  /-- TRANSMIT_ARBITER_CHOICE, R180: the transmitter of a port asks its arbiter. -/
  | transmitArbiterChoice (p : Port)
  /-- TRANSMISSION_END, R174: the last byte of a frame has left a port. -/
  | transmissionEnd (p : Port)
  /-- NOTICE_TIMER_EXPIRY, R162: the notice timer of a session expires. -/
  | noticeTimerExpiry (x : Port)
  /-- FRAMING_ERROR, R171: port U samples a stop bit at space. `counted`: the millisecond count has
  advanced since the last change of URX to space, from which R173 measures; without it, it has not
  (log 5). -/
  | framingError (counted : Bool := false)
  /-- INTER_BYTE_GAP, R172: more than 5 ms pass inside a frame on port U. -/
  | interByteGap
  /-- LINK_RESET, R173: URX has been at space for 10 ms. -/
  | linkReset
  /-- DESELECT, R176: SSEL rises. -/
  | deselect
  /-- BYTE_DELIVERED, R168: a byte reaches the frame receiver of a port. -/
  | byteDelivered (p : Port) (b : Byte)
deriving DecidableEq, Repr

end Sys2Proof
end

