-- ==== Sys2Proof/Decode.lean ====
section
/-! DEFINITION. Table words. No row of spec/opcode_table.json has bits ("fields": [] throughout), so no
word spells a command (log 24). The byte layouts of frames, commands, replies and notices (chapter 11)
are in Machine/Codec.lean, Machine/Codes.lean and Machine/Operands.lean. -/

namespace Sys2Proof

/-- The command that a word of the table spells: none, since the table gives no row any bits. -/
def decodeTableWord (_nbits _w : Nat) : Option Instr := none

end Sys2Proof
end

