-- ==== Sys2Proof/Config.lean ====
section
/-! DEFINITION. The capacities of the part (00 Table 0-2) and the free values the spec leaves open. -/

namespace Sys2Proof.Config

/-- A ring takes no further sample once its head is 2^48 − 1 (01 R2). -/
abbrev headLimit : Nat := 281474976710655

/-- The four counters of a job stop here (02 R48). -/
abbrev counterLimit : Nat := 4294967295

/-- Fold, occurrence and missed counts of a pending entry (09 R155) and a port's line error count
(10 R170) stop here. -/
abbrev countLimit : Nat := 65535

/-- Capacity of a ring: 16 to 16384 samples (01 R17). -/
abbrev minCapacity : Nat := 16

/-- Capacity of a ring: 16 to 16384 samples (01 R17). -/
abbrev maxCapacity : Nat := 16384

/-- Length of a set and of a window: 1 to 4096 (06 R109, 02 R28). -/
abbrev maxLength : Nat := 4096

/-- Samples or coefficients in one data command: 1 to 120 (01 R14, 06 R110). -/
abbrev maxItems : Nat := 120

/-- Sample memory, addresses 0 to 32767 (01 R3, 07 R122). -/
abbrev sampleMemorySize : Nat := 32768

/-- Coefficient memory, addresses 0 to 8191 (06 R105, 07 R122). -/
abbrev coefMemorySize : Nat := 8192

/-- Products of one segment (03 R60). -/
abbrev segment : Nat := 64

/-- The accumulator's least value, −2^47 (03 R59). -/
abbrev accMin : Int := -140737488355328

/-- The accumulator's greatest value, 2^47 − 1 (03 R59). -/
abbrev accMax : Int := 140737488355327

/-- The least result value, −2^31 (03 R63). -/
abbrev valueMin : Int := -2147483648

/-- The greatest result value, 2^31 − 1 (03 R63). -/
abbrev valueMax : Int := 2147483647

/-- Bits of a sample word (01 R9). -/
abbrev sampleWordSize : Nat := 18

/-- Records in a session's result queue (04 R74). -/
abbrev resultQueueSize : Nat := 32

/-- Records that one FETCH may ask for (04 R79). -/
abbrev maxFetch : Nat := 16

/-- Commands in a session's command queue (08 R143). -/
abbrev commandQueueSize : Nat := 4

/-- Replies in a session's reply cache (08 R146). -/
abbrev replyCacheSize : Nat := 8

/-- Frames in a port's reply FIFO (10 R179). -/
abbrev replyFifoSize : Nat := 8

/-- Notices in flight (09 R154). -/
abbrev inFlightSize : Nat := 4

/-- Payload bytes of a frame: 0 to 248 (10 R167). -/
abbrev maxPayload : Nat := 248

/-- The notice timeout that HELLO chooses by carrying 0, in ms (08 R134). -/
abbrev defaultTimeout : Nat := 100

/-- The gap limit inside a frame on port U, in ms (10 R172). -/
abbrev gapLimit : Nat := 5

/-- The time at space that makes a break on port U, in ms (10 R173). -/
abbrev breakTime : Nat := 10

/-- The expiry that finds this retry count loses the session (09 R163). -/
abbrev maxRetries : Nat := 3

/-- The part code of the HELLO reply (11 Table 11-5). -/
abbrev partCode : Nat := 0x4C32

/-- FREE VALUE (log 8). What an address of sample memory holds that no sample has been written to
since the last RSTN: "contents after RSTN are not defined" (01 R3). The first argument counts the
resets, so that each leaves contents of its own; the second is the address. -/
opaque staleSample : Nat → Nat → BitVec 16

/-- FREE VALUE (log 8). What an address of coefficient memory holds that no coefficient has been
written to since the last RSTN (06 R105). -/
opaque staleCoefficient : Nat → Nat → BitVec 16

end Sys2Proof.Config
end

