-- ==== Sys2Proof/Machine/Table.lean ====
section
/-! DEFINITION. Containers: a table of records by id, and a pair of records, one for each port. -/

namespace Sys2Proof.Machine

/-- A table of `n` like records. -/
abbrev Table (α : Type) (n : Nat) := Vector α n

/-- The record with an id. -/
def Table.look {α : Type} {n : Nat} (t : Table α n) (i : Fin n) : α := t[i.val]'i.isLt

/-- The table with one record replaced. -/
def Table.put {α : Type} {n : Nat} (t : Table α n) (i : Fin n) (v : α) : Table α n :=
  t.set i.val v i.isLt

/-- One record for port or session U and one for S. -/
structure Pair (α : Type) where
  u : α
  s : α
deriving DecidableEq, Repr

/-- The record of a port or session. -/
def Pair.look {α : Type} (q : Pair α) : Port → α
  | .u => q.u
  | .s => q.s

/-- The pair with one record replaced. -/
def Pair.put {α : Type} (q : Pair α) (p : Port) (v : α) : Pair α :=
  match p with
  | .u => { q with u := v }
  | .s => { q with s := v }

end Sys2Proof.Machine
end

