-- ==== Sys2Proof/Machine/State.lean ====
section
/-! DEFINITION. The state of the part, as plain data: every record, list, queue, counter and mode that
the chapters 1 to 10 give it, and `State.reset`, the part right after RSTN. -/

namespace Sys2Proof.Machine

/-! ### Ids -/

/-- Ring ids 0 to 7 (01 R1). -/
abbrev RingId := Fin 8
/-- Stream channels 0 to 3 (01 R8). -/
abbrev ChannelId := Fin 4
/-- Set ids 0 to 15 (06 R104). -/
abbrev SetId := Fin 16
/-- Job ids 0 to 31 (02 R25). -/
abbrev JobId := Fin 32
/-- Priorities and classes of the ready queue, 0 to 3, 3 highest (03 R54). -/
abbrev ClassId := Fin 4

/-! ### Memories and extents -/

/-- One 16-bit cell of sample or coefficient memory at an address (01 R3, 06 R105; log 9). -/
abbrev Cell16 := Nat × Word16

/-- A memory: its written cells, addresses strictly rising; an unlisted address has no value (log 8). -/
abbrev Mem := List Cell16

/-- A free extent, addresses base to base + size − 1 (07 R122). -/
structure Extent where
  base : Nat
  size : Nat
deriving DecidableEq, Repr

/-! ### Rings (01 Table 1-1) -/

/-- Where a ring's samples come from. -/
inductive Source where
  | channel (c : ChannelId)
  | host
deriving DecidableEq, Repr

/-- An ACTIVE ring record. -/
structure Ring where
  owner : Option Port
  orphaned : Bool
  source : Source
  base : Nat
  capacity : Nat
  head : Nat
  fill : Nat
  refs : Nat
deriving DecidableEq, Repr

/-! ### Coefficient sets (06 Table 6-1) -/

/-- LOADING, or READY with the two fields that only a READY set has. -/
inductive SetPhase where
  | loading
  | ready (orphaned : Bool) (crc : Word16)
deriving DecidableEq, Repr

/-- A LOADING or READY set record. -/
structure CoefSet where
  owner : Option Port
  base : Nat
  length : Nat
  refs : Nat
  phase : SetPhase
deriving DecidableEq, Repr

/-- An open load context (06 R108). -/
structure Load where
  set : SetId
  next : Nat
deriving DecidableEq, Repr

/-! ### Results and watches -/

/-- A result record (04 Table 4-1). -/
structure Record where
  job : JobId
  run : Word16
  trigger : Word32
  value : Int
  sat : Bool
  extra : Bool
  preempted : Bool
deriving DecidableEq, Repr

/-- The class of a result (05 R90). -/
inductive Class where
  | unknown
  | below
  | inside
  | above
deriving DecidableEq, Repr

/-- A watch (05 Table 5-1). -/
structure Watch where
  low : Int
  high : Int
  current : Class
  reported : Class
deriving DecidableEq, Repr

/-! ### Jobs (02 Table 2-1) -/

/-- Whether a job's runs may be preempted (03 R60). -/
inductive RunMode where
  | whole
  | segmented
deriving DecidableEq, Repr

/-- The eight parameters of a definition. -/
structure Params where
  length : Nat
  stride : Nat
  phase : Nat
  priority : ClassId
  mode : RunMode
  preset : Int
  presetShift : Nat
  outputShift : Nat
deriving DecidableEq, Repr

/-- The parked partial of a run (02 Table 2-1, 03 R62). -/
structure Partial where
  acc : Int
  next : Nat
  sat : Bool
deriving DecidableEq, Repr

/-- The state of a non-EMPTY job. The parked partial stands in PARKED only and the held result in HELD
only (02 Table 2-2). -/
inductive JobState where
  | defined
  | armed
  | ready
  | running
  | parked (p : Partial)
  | held (r : Record)
deriving DecidableEq, Repr

/-- A non-EMPTY job record. -/
structure Job where
  state : JobState
  owner : Port
  ring : RingId
  set : SetId
  par : Params
  armed : Bool
  countdown : Nat
  windowStart : Nat
  triggerHead : Nat
  extra : Bool
  preempted : Bool
  watch : Option Watch
  runNumber : Word16
  completed : Nat
  missed : Nat
  skipped : Nat
  lost : Nat
deriving DecidableEq, Repr

/-- The run in flight (03 Table 3-1). -/
structure Run where
  job : JobId
  acc : Int
  next : Nat
  sat : Bool
deriving DecidableEq, Repr

/-! ### Frames and notices -/

/-- A frame less its SYNC, LEN and check, which follow from these (10 R167). -/
structure Frame where
  kind : Byte
  seq : Byte
  payload : List Byte
deriving DecidableEq, Repr

/-- An accepted command as it arrived (08 R137). -/
structure Command where
  seq : Byte
  payload : List Byte
deriving DecidableEq, Repr

/-- A pending notice entry (09 Table 9-2). The cause of every FAULT is WINDOW_LOST. -/
inductive Entry where
  | alert (job : JobId) (cls : Class) (value : Int) (run : Word16) (folds : Nat)
  | fault (job : JobId) (ring : RingId) (count : Nat)
  | overrun (job : JobId) (missed : Nat)
  | results
deriving DecidableEq, Repr

/-- A notice in flight: the exact frame sent, its retransmission mark and its sent-at (09 Table 9-1). -/
structure Notice where
  frame : Frame
  marked : Bool
  sentAt : Option Nat
deriving DecidableEq, Repr

/-! ### Sessions (08 Table 8-1, 09 Table 9-1, 04 R74, R77, 06 R108) -/

/-- A session's record with its result queue, held order list, load context and notice unit items. -/
structure Session where
  isOpen : Bool
  expected : Byte
  timeout : Nat
  resultsNotify : Bool
  queue : List Command
  cache : List Frame
  results : List Record
  heldOrder : List JobId
  load : Option Load
  pendingList : List Entry
  inFlight : List Notice
  noticeSeq : Byte
  retry : Nat
  timer : Option Nat
deriving DecidableEq, Repr

/-! ### Ports (10 Table 10-1, R170, R174, R177, R179) -/

/-- A frame receiver with its partial frame. -/
inductive Receiver where
  /-- HUNT. -/
  | hunt
  /-- HEADER, with KIND and SEQ as far as taken. -/
  | header (taken : List Byte)
  /-- PAYLOAD, with the payload bytes taken. -/
  | payload (kind seq len : Byte) (taken : List Byte)
  /-- CHECK, with the first check byte once taken. -/
  | check (f : Frame) (first : Option Byte)
deriving DecidableEq, Repr

/-- What both ports have: receiver, reply FIFO and line error count. -/
structure PortState where
  rx : Receiver
  fifo : List Frame
  lineErrors : Nat
deriving DecidableEq, Repr

/-- The current outbound frame of port S and how many of its bytes are sent (10 R177). -/
structure Outbound where
  frame : Frame
  position : Nat
deriving DecidableEq, Repr

/-- The transmitter of port S. `selected`: a select window is open, that is, SSEL is low (10 R175).
`filler`: the byte exchange under way presents the filler byte, or the one that SSEL cut short did, whose
byte is presented again (10 R175, R177). -/
structure TransmitterS where
  selected : Bool
  current : Option Outbound
  filler : Bool
deriving DecidableEq, Repr

/-- What port U makes of URX (10 R171, R173). -/
inductive UrxState where
  /-- It begins bytes. -/
  | following
  /-- It waits for mark after a framing error, or a reset with URX at space: URX has been at space since
  the millisecond count `since` and was sampled there at the count `seen` (10 R171, R173; log 5). -/
  | atSpace (since seen : Nat)
  /-- It waits for mark in a break that gave its link reset at the count `seen`. -/
  | broken (seen : Nat)
deriving DecidableEq, Repr

/-! ### The state -/

/-- The whole state of the part, and the queue of the commands that wait. -/
structure State where
  /-- The commands that wait, first in, first out. -/
  pending : List Instr
  /-- The ring table; `none` is ABSENT (01 R1). -/
  rings : Table (Option Ring) 8
  /-- The channel bindings (01 R8). -/
  bindings : Table (Option RingId) 4
  /-- The bits taken of the sample word in progress, first bit first; no word is in progress while
  there are none (01 R9). -/
  spWord : List Bool
  /-- Sample memory (01 R3). -/
  sampleMem : Mem
  /-- The job table; `none` is EMPTY (02 R25). -/
  jobs : Table (Option Job) 32
  /-- The four classes of the ready queue, head first (03 R54). -/
  ready : Table (List JobId) 4
  /-- The run in flight; `none` while the PSU is IDLE (03 R53). -/
  psu : Option Run
  /-- The set table; `none` is EMPTY (06 R104). -/
  sets : Table (Option CoefSet) 16
  /-- Coefficient memory (06 R105). -/
  coefMem : Mem
  /-- The free-extent list of sample memory (07 R122). -/
  sampleFree : List Extent
  /-- The free-extent list of coefficient memory (07 R122). -/
  coefFree : List Extent
  /-- Sessions U and S (08 R131). -/
  sessions : Pair Session
  /-- The last-served marker of the command processor (08 R144). -/
  lastServed : Port
  /-- Receivers, reply FIFOs and line error counts (10). -/
  ports : Pair PortState
  /-- The port U transmitter; `none` is IDLE (10 R174). -/
  txU : Option Frame
  /-- The port S transmitter (10 R177). -/
  txS : TransmitterS
  /-- BAUD as sampled at the release of RSTN (10 R171). -/
  baud : Level
  /-- The condition of URX (10 R171, R173). -/
  urx : UrxState
  /-- The time at which port U delivered its last byte (10 R172). -/
  lastByteAt : Nat
  /-- The count of the millisecond timer (10 R181). -/
  ms : Nat
  /-- MODEL: how many RSTN pulses chose the free contents of the memories (log 8). -/
  epoch : Nat
deriving DecidableEq, Repr

/-- No command of the part ends in a fault: the spec gives no happening that stops it. Every error it
names is a reply status, a notice, a counted line error or the loss of a session (00, "How errors
reach the host"), each of which is a next state. There is no constructor, which is safe: no claim can
rest on a stop. -/
inductive Fault where
deriving DecidableEq, Repr

/-- The refusals of the model. -/
inductive Refusal where
  /-- Raised by an arm of `exec` whose command has no meaning yet: safe, nothing can be proved of a next
  state there. No arm raises it now. -/
  | notModelled (mnemonic : String)
deriving DecidableEq, Repr

/-- A session record after RSTN, and after a teardown (08 R131, R150). What holds no meaning while the
session is CLOSED is 0 or off: DESIGN CHOICE, log 12. -/
def Session.closed : Session :=
  { isOpen := false, expected := 0, timeout := 0, resultsNotify := false, queue := [], cache := [],
    results := [], heldOrder := [], load := none, pendingList := [], inFlight := [],
    noticeSeq := 0, retry := 0, timer := none }

/-- A port after RSTN (10 R181). -/
def PortState.reset : PortState := { rx := .hunt, fifo := [], lineErrors := 0 }

/-- The part at the release of RSTN, with the levels of BAUD, URX and SSEL there, and the free contents
of the memories that this reset leaves (10 R181, R171, R175 and each chapter's own reset rule). -/
def State.afterReset (baud : Level) (lines : Lines) (epoch : Nat) : State :=
  { pending := []
    rings := Vector.replicate 8 none
    bindings := Vector.replicate 4 none
    spWord := []
    sampleMem := []
    jobs := Vector.replicate 32 none
    ready := Vector.replicate 4 []
    psu := none
    sets := Vector.replicate 16 none
    coefMem := []
    sampleFree := [{ base := 0, size := Config.sampleMemorySize }]
    coefFree := [{ base := 0, size := Config.coefMemorySize }]
    sessions := { u := Session.closed, s := Session.closed }
    lastServed := .u
    ports := { u := PortState.reset, s := PortState.reset }
    txU := none
    txS := { selected := lines.ssel = .low, current := none, filler := false }
    baud := baud
    urx := match lines.urx with | .high => .following | .low => .atSpace 0 0
    lastByteAt := 0
    ms := 0
    epoch := epoch }

/-- The part right after RSTN, with BAUD low, URX at mark and SSEL high (DESIGN CHOICE, log 13). -/
def State.reset : State := State.afterReset .low { urx := .high, ssel := .high } 0

end Sys2Proof.Machine
end

