-- ==== Sys2Proof/Machine/Extents.lean ====
section
/-! DEFINITION. The extent allocators (07 R124, R125). -/

namespace Sys2Proof.Machine

/-- First fit: the low end of the first entry of at least `n`, and the list it leaves; `none` when no
entry fits (07 R124). -/
def allocate (n : Nat) : List Extent → Option (Nat × List Extent)
  | [] => none
  | e :: rest =>
    if n ≤ e.size then
      if e.size = n then some (e.base, rest)
      else some (e.base, { base := e.base + n, size := e.size - n } :: rest)
    else (allocate n rest).map fun (b, l) => (b, e :: l)

/-- An extent returns to the list and joins the neighbours it touches (07 R125, Table 7-2). -/
def freeExtent (b n : Nat) : List Extent → List Extent
  | [] => [{ base := b, size := n }]
  | e :: rest =>
    if b + n < e.base then { base := b, size := n } :: e :: rest
    else if b + n = e.base then { base := b, size := n + e.size } :: rest
    else if e.base + e.size = b then
      match rest with
      | [] => [{ base := e.base, size := e.size + n }]
      | f :: rest' =>
        if b + n = f.base then { base := e.base, size := e.size + n + f.size } :: rest'
        else { base := e.base, size := e.size + n } :: f :: rest'
    else e :: freeExtent b n rest

/-- The total free of a memory: the sum of its entry sizes (07 R123). -/
def totalFree (l : List Extent) : Nat := (l.map Extent.size).sum

end Sys2Proof.Machine
end

