-- ==== Sys2Proof/Machine/Memory.lean ====
section
/-! DEFINITION. Sample and coefficient memory as lists of written cells, addresses strictly rising. -/

namespace Sys2Proof.Machine

/-- What a memory lists at an address: `none` when nothing has been written there since RSTN. -/
def Mem.read? : Mem → Nat → Option Word16
  | [], _ => none
  | (b, v) :: rest, a => if b = a then some v else Mem.read? rest a

/-- The memory with one cell written (01 R3, 06 R105). -/
def Mem.write : Mem → Nat → Word16 → Mem
  | [], a, v => [(a, v)]
  | (b, w) :: rest, a, v =>
    if a < b then (a, v) :: (b, w) :: rest
    else if a = b then (a, v) :: rest
    else (b, w) :: Mem.write rest a v

/-- A run of cells written from an address upward (06 R111). -/
def Mem.writeAll : Mem → Nat → List Word16 → Mem
  | m, _, [] => m
  | m, a, v :: vs => Mem.writeAll (m.write a v) (a + 1) vs

/-- Every listed address is above `a`. -/
def Mem.above (a : Nat) (m : Mem) : Bool := m.all fun c => a < c.1

/-- The canonical form: addresses strictly rising. -/
def Mem.wf : Mem → Bool
  | [] => true
  | (a, _) :: rest => Mem.above a rest && Mem.wf rest

/-- The value of an address of sample memory; an unlisted one holds a free value (log 8). -/
def State.readSample (s : State) (a : Nat) : Word16 :=
  (s.sampleMem.read? a).getD (Config.staleSample s.epoch a)

/-- The value of an address of coefficient memory; an unlisted one holds a free value (log 8). -/
def State.readCoef (s : State) (a : Nat) : Word16 :=
  (s.coefMem.read? a).getD (Config.staleCoefficient s.epoch a)

end Sys2Proof.Machine
end

