-- ==== Sys2Proof/Machine/Codec.lean ====
section
/-! DEFINITION. Field encoding, the CRC-16 and the bytes of a frame (10 R167, 11 R184, Table 11-1). -/

namespace Sys2Proof.Machine

/-- An unsigned field of `n` bytes, least significant byte first (11 R184). -/
def leBytes : Nat → Nat → List Byte
  | 0, _ => []
  | n + 1, v => BitVec.ofNat 8 v :: leBytes n (v / 256)

/-- The unsigned value of a field, least significant byte first (11 R184). -/
def leNat : List Byte → Nat
  | [] => 0
  | b :: bs => b.toNat + 256 * leNat bs

/-- A signed field of 4 bytes in two's complement (11 R184). -/
def leInt32 (v : Int) : List Byte := leBytes 4 (BitVec.ofInt 32 v).toNat

/-- The signed value of a 4-byte field (11 R184). -/
def intOf32 (bs : List Byte) : Int := (BitVec.ofNat 32 (leNat bs)).toInt

/-- A yes-or-no field (11 R184). -/
def flagByte (b : Bool) : Byte := if b then 1 else 0

/-- A field of `n` zero bytes (11 R186). -/
def zeros (n : Nat) : List Byte := List.replicate n 0

/-- A run of 2-byte values, each least significant byte first; `none` when a byte is left over. -/
def words16 : List Byte → Option (List Word16)
  | [] => some []
  | lo :: hi :: rest => (words16 rest).map (BitVec.ofNat 16 (leNat [lo, hi]) :: ·)
  | [_] => none

/-- The bytes of a run of 2-byte values. -/
def bytes16 (ws : List Word16) : List Byte := ws.flatMap fun w => leBytes 2 w.toNat

/-- One bit of the CRC-16 with polynomial x^16 + x^12 + x^5 + 1 (10 R167). -/
def crcBit (c : Word16) : Word16 := if c.msb then (c <<< 1) ^^^ 0x1021#16 else c <<< 1

/-- One byte enters the CRC, most significant bit first (10 R167). -/
def crcByte (c : Word16) (b : Byte) : Word16 :=
  crcBit (crcBit (crcBit (crcBit (crcBit (crcBit (crcBit (crcBit
    (c ^^^ (b.setWidth 16 <<< 8)))))))))

/-- The CRC-16 of a run of bytes, initial value FFFFh, not inverted (10 R167). -/
def crc16 (bs : List Byte) : Word16 := bs.foldl crcByte 0xFFFF#16

/-- The LEN byte of a frame (10 R167). -/
def Frame.len (f : Frame) : Byte := BitVec.ofNat 8 f.payload.length

/-- The bytes the check covers: KIND to the last payload byte (10 R167). -/
def Frame.covered (f : Frame) : List Byte := f.kind :: f.seq :: f.len :: f.payload

/-- The bytes of a frame in line order (10 R167, 11 Table 11-1). -/
def Frame.bytes (f : Frame) : List Byte :=
  0xA5#8 :: f.covered ++ leBytes 2 (crc16 f.covered).toNat

/-- How many bytes a frame has on the line: 6 more than its payload (10 R167). -/
def Frame.size (f : Frame) : Nat := f.payload.length + 6

/-- Frame kind codes (11 Table 11-2). -/
def kindCommand : Byte := 0x01#8
/-- Frame kind codes (11 Table 11-2). -/
def kindReply : Byte := 0x02#8
/-- Frame kind codes (11 Table 11-2). -/
def kindNotice : Byte := 0x03#8
/-- Frame kind codes (11 Table 11-2). -/
def kindAck : Byte := 0x04#8

/-- The command code of a COMMAND payload; a payload of no byte has code 00h (11 R185). -/
def codeOf (payload : List Byte) : Byte := payload.headD 0

end Sys2Proof.Machine
end

