-- ==== Sys2Proof/Machine/Codes.lean ====
section
/-! DEFINITION. Status codes and enumeration codes (11 Tables 11-6 and 11-7), and the layouts of result
records and notice payloads (11 R187, Tables 11-8 and 11-9). -/

namespace Sys2Proof.Machine

/-- Reply statuses (11 Table 11-6). -/
inductive Status where
  | ok | busy | sequence | notOpen | badKind | badLength | badArg | noSlot | noSpace | notFound
  | notOwner | inUse | orphaned | wrongState | notReady | channelBound | ringFull | notFilled
  | notPresent | loadOpen | noLoad | outOfSequence | duplicate | incomplete | checkFailed
deriving DecidableEq, Repr

/-- Status codes (11 Table 11-6). -/
def Status.code : Status → Byte
  | .ok => 0x00 | .busy => 0x01 | .sequence => 0x02 | .notOpen => 0x03 | .badKind => 0x04
  | .badLength => 0x05 | .badArg => 0x06 | .noSlot => 0x07 | .noSpace => 0x08 | .notFound => 0x09
  | .notOwner => 0x0A | .inUse => 0x0B | .orphaned => 0x0C | .wrongState => 0x0D
  | .notReady => 0x0E | .channelBound => 0x0F | .ringFull => 0x10 | .notFilled => 0x11
  | .notPresent => 0x12 | .loadOpen => 0x13 | .noLoad => 0x14 | .outOfSequence => 0x15
  | .duplicate => 0x16 | .incomplete => 0x17 | .checkFailed => 0x18

/-- Session and owner codes: 01h U, 02h S (11 Table 11-7). -/
def sessionCode : Port → Byte
  | .u => 0x01
  | .s => 0x02

/-- Owner codes: 00h none (11 Table 11-7). -/
def ownerCode : Option Port → Byte
  | none => 0x00
  | some x => sessionCode x

/-- Ring source codes (11 Table 11-7). -/
def Source.code : Source → Byte
  | .channel c => BitVec.ofNat 8 c.val
  | .host => 0x10

/-- Run mode codes (11 Table 11-7). -/
def RunMode.code : RunMode → Byte
  | .whole => 0x00
  | .segmented => 0x01

/-- Job state codes of a non-EMPTY job (11 Table 11-7); EMPTY is 00h. -/
def JobState.code : JobState → Byte
  | .defined => 0x01
  | .armed => 0x02
  | .ready => 0x03
  | .running => 0x04
  | .parked _ => 0x05
  | .held _ => 0x06

/-- Class codes (11 Table 11-7). -/
def Class.code : Class → Byte
  | .unknown => 0x00
  | .below => 0x01
  | .inside => 0x02
  | .above => 0x03

/-- The flags byte of a result record (11 Table 11-8). -/
def Record.flags (r : Record) : Byte :=
  flagByte r.sat ||| (flagByte r.extra <<< 1) ||| (flagByte r.preempted <<< 2)

/-- The 12 bytes of a result record (11 Table 11-8). -/
def Record.bytes (r : Record) : List Byte :=
  BitVec.ofNat 8 r.job.val :: leBytes 2 r.run.toNat ++ leBytes 4 r.trigger.toNat
    ++ leInt32 r.value ++ [r.flags]

/-- The payload of the notice formed from an entry while `records` records stand in the session's
result queue (09 R157, 11 Table 11-9, R187). -/
def Entry.payload (records : Nat) : Entry → List Byte
  | .alert j c v run folds =>
    0x01 :: BitVec.ofNat 8 j.val :: c.code :: leInt32 v ++ leBytes 2 run.toNat ++ leBytes 2 folds
  | .fault j r count => [0x02, BitVec.ofNat 8 j.val, 0x01, BitVec.ofNat 8 r.val] ++ leBytes 2 count
  | .overrun j missed => [0x03, BitVec.ofNat 8 j.val] ++ leBytes 2 missed
  | .results => [0x04, 0xFF, BitVec.ofNat 8 records]

/-- The command codes (11 Table 11-3). -/
def commandCodes : List Byte :=
  [0x10, 0x11, 0x12, 0x20, 0x21, 0x22, 0x23, 0x24, 0x25, 0x30, 0x31, 0x32, 0x33, 0x34, 0x35, 0x38,
   0x40, 0x41, 0x42, 0x43, 0x44, 0x45, 0x46, 0x50]

/-- The code of HELLO (11 Table 11-3). -/
def codeHello : Byte := 0x10

/-- The payload of a reply: status, command code as received, data (11 Table 11-4). -/
def replyPayload (st : Status) (code : Byte) (data : List Byte) : List Byte :=
  st.code :: code :: data

/-- The REPLY frame that answers the command with a sequence number (10 R167, 11 Table 11-4). -/
def replyFrame (seq : Byte) (st : Status) (code : Byte) (data : List Byte) : Frame :=
  { kind := kindReply, seq := seq, payload := replyPayload st code data }

end Sys2Proof.Machine
end

