-- ==== Sys2Proof/Machine/Ops.lean ====
section
/-! DEFINITION. Named reads and writes of the state's records. Every meaning reads and writes the tables
through these. -/

namespace Sys2Proof.Machine

/-- All job ids in ascending order (02 R13, R46: jobs are taken in ascending job id). -/
def allJobs : List JobId := List.finRange 32
/-- All ring ids in ascending order (01 R23). -/
def allRings : List RingId := List.finRange 8
/-- All set ids in ascending order (06 R118). -/
def allSets : List SetId := List.finRange 16

/-- A counter that stops at its limit (02 R48, 09 R155, 10 R170). -/
def bump (limit n : Nat) : Nat := if n < limit then n + 1 else n

/-- The id an argument byte names, when it is in range. -/
def ringId? (b : Byte) : Option RingId := if h : b.toNat < 8 then some ⟨b.toNat, h⟩ else none
/-- The id an argument byte names, when it is in range. -/
def setId? (b : Byte) : Option SetId := if h : b.toNat < 16 then some ⟨b.toNat, h⟩ else none
/-- The id an argument byte names, when it is in range. -/
def jobId? (b : Byte) : Option JobId := if h : b.toNat < 32 then some ⟨b.toNat, h⟩ else none

/-- The session of the other port. -/
def otherPort : Port → Port
  | .u => .s
  | .s => .u

namespace State

/-- The record of a ring; `none` is ABSENT (01 R1). -/
def ring (s : State) (r : RingId) : Option Ring := s.rings.look r
/-- A ring record replaced. -/
def putRing (s : State) (r : RingId) (v : Option Ring) : State := { s with rings := s.rings.put r v }

/-- The binding of a channel (01 R8). -/
def binding (s : State) (c : ChannelId) : Option RingId := s.bindings.look c
/-- A channel binding replaced. -/
def putBinding (s : State) (c : ChannelId) (v : Option RingId) : State :=
  { s with bindings := s.bindings.put c v }

/-- The record of a job; `none` is EMPTY (02 R25). -/
def job (s : State) (j : JobId) : Option Job := s.jobs.look j
/-- A job record replaced. -/
def putJob (s : State) (j : JobId) (v : Option Job) : State := { s with jobs := s.jobs.put j v }

/-- One class of the ready queue (03 R54). -/
def cls (s : State) (c : ClassId) : List JobId := s.ready.look c
/-- A class of the ready queue replaced. -/
def putClass (s : State) (c : ClassId) (l : List JobId) : State :=
  { s with ready := s.ready.put c l }

/-- The record of a set; `none` is EMPTY (06 R104). -/
def coef (s : State) (c : SetId) : Option CoefSet := s.sets.look c
/-- A set record replaced. -/
def putCoef (s : State) (c : SetId) (v : Option CoefSet) : State := { s with sets := s.sets.put c v }

/-- The record of a session (08 R131). -/
def session (s : State) (x : Port) : Session := s.sessions.look x
/-- A session record replaced. -/
def putSession (s : State) (x : Port) (v : Session) : State :=
  { s with sessions := s.sessions.put x v }
/-- A session record changed. -/
def modSession (s : State) (x : Port) (f : Session → Session) : State :=
  s.putSession x (f (s.session x))

/-- The receiver, reply FIFO and line error count of a port (10). -/
def port (s : State) (p : Port) : PortState := s.ports.look p
/-- A port record replaced. -/
def putPort (s : State) (p : Port) (v : PortState) : State := { s with ports := s.ports.put p v }
/-- A port record changed. -/
def modPort (s : State) (p : Port) (f : PortState → PortState) : State := s.putPort p (f (s.port p))

end State

/-! ### Entries of a pending notice list (09 R154, R155) -/

/-- The entry is a RESULTS entry. -/
def Entry.isResults : Entry → Bool
  | .results => true
  | _ => false

/-- The entry is the ALERT entry of a job. -/
def Entry.isAlertOf (j : JobId) : Entry → Bool
  | .alert k _ _ _ _ => k = j
  | _ => false

/-- The entry is the FAULT entry of a job. -/
def Entry.isFaultOf (j : JobId) : Entry → Bool
  | .fault k _ _ => k = j
  | _ => false

/-- The entry is the OVERRUN entry of a job. -/
def Entry.isOverrunOf (j : JobId) : Entry → Bool
  | .overrun k _ => k = j
  | _ => false

/-- The entry names a job. -/
def Entry.names (j : JobId) (e : Entry) : Bool := e.isAlertOf j || e.isFaultOf j || e.isOverrunOf j

/-- A FAULT request for a job (02 R40): the pending entry is folded, else one is added at the tail. -/
def requestFault (j : JobId) (r : RingId) (l : List Entry) : List Entry :=
  if l.any (Entry.isFaultOf j) then
    l.map fun e => match e with
      | .fault k r' n => if k = j then .fault k r (bump Config.countLimit n) else .fault k r' n
      | e => e
  else l ++ [.fault j r 1]

/-- An OVERRUN request for a job (02 R37). -/
def requestOverrun (j : JobId) (l : List Entry) : List Entry :=
  if l.any (Entry.isOverrunOf j) then
    l.map fun e => match e with
      | .overrun k n => if k = j then .overrun k (bump Config.countLimit n) else .overrun k n
      | e => e
  else l ++ [.overrun j 1]

/-- The fold of a job's pending ALERT entry by a further change of class (05 R96, step 2). -/
def foldAlert (j : JobId) (c : Class) (v : Int) (run : Word16) (l : List Entry) : List Entry :=
  l.map fun e => match e with
    | .alert k c' v' run' n =>
      if k = j then .alert k c v run (bump Config.countLimit n) else .alert k c' v' run' n
    | e => e

/-- The withdrawal of a job's pending ALERT entry (05 R99). -/
def withdrawAlert (j : JobId) (l : List Entry) : List Entry := l.filter fun e => !e.isAlertOf j

/-- The withdrawal of every pending entry that names a job (02 R45, step 3). -/
def withdrawJob (j : JobId) (l : List Entry) : List Entry := l.filter fun e => !e.names j

/-- The withdrawal of the pending RESULTS entry (04 R84). -/
def withdrawResults (l : List Entry) : List Entry := l.filter fun e => !e.isResults

end Sys2Proof.Machine
end

