-- ==== Sys2Proof/Machine/Operands.lean ====
section
/-! DEFINITION. The operand forms: how argument bytes are read (11 R184, Table 11-3) and how the figures of
reply data are written (11 Table 11-5). -/

namespace Sys2Proof.Machine

/-- The source an argument byte names (11 Table 11-7, 01 R17 check 3). -/
def source? (b : Byte) : Option Source :=
  if h : b.toNat < 4 then some (.channel ⟨b.toNat, h⟩)
  else if b = 0x10 then some .host
  else none

/-- The priority an argument byte names (02 R28 check 10). -/
def priority? (b : Byte) : Option ClassId := if h : b.toNat < 4 then some ⟨b.toNat, h⟩ else none

/-- The run mode an argument byte names (11 Table 11-7, 02 R28 check 10). -/
def runMode? (b : Byte) : Option RunMode :=
  if b = 0x00 then some .whole else if b = 0x01 then some .segmented else none

/-- The arguments of JOB_DEFINE after the job id (11 Table 11-3). -/
structure DefineArgs where
  ring : Byte
  set : Byte
  length : Nat
  stride : Nat
  phase : Nat
  priority : Byte
  mode : Byte
  preset : Int
  presetShift : Nat
  outputShift : Nat
deriving DecidableEq, Repr

/-- The parameters of a definition, when check 10 of 02 R28 passes. -/
def DefineArgs.params? (a : DefineArgs) : Option Params :=
  match priority? a.priority, runMode? a.mode with
  | some c, some m =>
    if a.presetShift ≤ 16 ∧ a.outputShift ≤ 31 then
      some { length := a.length, stride := a.stride, phase := a.phase, priority := c, mode := m,
             preset := a.preset, presetShift := a.presetShift, outputShift := a.outputShift }
    else none
  | _, _ => none

/-- The entries of a free-extent list in a MEM_QUERY reply: their number, then base and size of each
(11 Table 11-5). -/
def extentBytes (l : List Extent) : List Byte :=
  BitVec.ofNat 8 l.length :: l.flatMap fun e => leBytes 2 e.base ++ leBytes 2 e.size

/-- The data of a RING_QUERY reply for an ACTIVE ring, after the ring id (11 Table 11-5, 01 R21). -/
def ringFigures (g : Ring) (pin : Option Nat) : List Byte :=
  [0x01, ownerCode g.owner, flagByte g.orphaned, g.source.code] ++ leBytes 2 g.base
    ++ leBytes 2 g.capacity ++ leBytes 6 g.head ++ leBytes 2 g.fill ++ leBytes 1 g.refs
    ++ [flagByte pin.isSome] ++ leBytes 6 (pin.getD 0)

/-- The data of a SET_QUERY reply for a LOADING or READY set, after the set id (06 R116). `loaded` is
the next offset of the owner's context. -/
def setFigures (c : CoefSet) (loaded : Nat) : List Byte :=
  match c.phase with
  | .loading =>
    [0x01, ownerCode c.owner, 0x00] ++ leBytes 2 c.base ++ leBytes 2 c.length ++ leBytes 1 c.refs
      ++ leBytes 2 loaded ++ leBytes 2 0
  | .ready orphaned crc =>
    [0x02, ownerCode c.owner, flagByte orphaned] ++ leBytes 2 c.base ++ leBytes 2 c.length
      ++ leBytes 1 c.refs ++ leBytes 2 c.length ++ leBytes 2 crc.toNat

/-- The held flag, run number and value of a JOB_QUERY reply (02 R47). -/
def heldFigures : JobState → List Byte
  | .held r => 0x01 :: leBytes 2 r.run.toNat ++ leInt32 r.value
  | _ => zeros 7

/-- The watch flag and fields of a JOB_QUERY reply (02 R47). -/
def watchFigures : Option Watch → List Byte
  | some w => 0x01 :: leInt32 w.low ++ leInt32 w.high ++ [w.current.code, w.reported.code]
  | none => zeros 11

/-- The return state of a job (02 R26). -/
def Job.returnState (b : Job) : JobState := if b.armed then .armed else .defined

/-- The data of a JOB_QUERY reply for a non-EMPTY job, after the job id (02 R47, 11 Table 11-5). -/
def jobFigures (b : Job) : List Byte :=
  [b.state.code, sessionCode b.owner, BitVec.ofNat 8 b.ring.val, BitVec.ofNat 8 b.set.val]
    ++ leBytes 2 b.par.length ++ leBytes 2 b.par.stride ++ leBytes 2 b.par.phase
    ++ [BitVec.ofNat 8 b.par.priority.val, b.par.mode.code] ++ leInt32 b.par.preset
    ++ [BitVec.ofNat 8 b.par.presetShift, BitVec.ofNat 8 b.par.outputShift, flagByte b.armed]
    ++ leBytes 2 b.countdown ++ [b.returnState.code] ++ leBytes 6 b.windowStart
    ++ leBytes 6 b.triggerHead ++ [flagByte b.extra, flagByte b.preempted]
    ++ heldFigures b.state ++ watchFigures b.watch ++ leBytes 2 b.runNumber.toNat
    ++ leBytes 4 b.completed ++ leBytes 4 b.missed ++ leBytes 4 b.skipped ++ leBytes 4 b.lost

end Sys2Proof.Machine
end

