-- ==== Sys2Proof/Machine/Results.lean ====
section
/-! DEFINITION. The result unit's shared steps: the held move, the RESULTS check, the purge (04), and the
watch unit's classification (05). -/

namespace Sys2Proof.Machine

/-- One held record moves into the queue of session `x`; `rest` is the held order list without it
(04 R78, steps 1 to 3). -/
def moveHeld (x : Port) (j : JobId) (rest : List JobId) (s : State) : State :=
  match s.job j with
  | some b =>
    match b.state with
    | .held r =>
      (s.modSession x fun z => { z with heldOrder := rest, results := z.results ++ [r] }).putJob j
        (some { b with state := b.returnState })
    | _ => s.modSession x fun z => { z with heldOrder := rest }
  | none => s.modSession x fun z => { z with heldOrder := rest }

/-- The move of held records, repeated while the queue has room and the list is not empty (04 R78). -/
def heldMoves (x : Port) : List JobId → State → State
  | [], s => s
  | j :: rest, s =>
    if (s.session x).results.length < Config.resultQueueSize then
      heldMoves x rest (moveHeld x j rest s)
    else s

/-- The move of held records of a session (04 R78). -/
def heldMove (x : Port) (s : State) : State := heldMoves x (s.session x).heldOrder s

/-- The RESULTS check at the end of a happening that changes a session's result queue, which held
`before` at its start: an entry is created (04 R83) or withdrawn (04 R84). -/
def resultsCheck (x : Port) (before : List Record) (s : State) : State :=
  let z := s.session x
  if z.results.isEmpty then
    s.putSession x { z with pendingList := withdrawResults z.pendingList }
  else if before.isEmpty ∧ z.resultsNotify ∧ ¬ z.pendingList.any Entry.isResults then
    s.putSession x { z with pendingList := z.pendingList ++ [.results] }
  else s

/-- How many records of a job stand in a result queue: the purge count (04 R81). -/
def purgeCount (j : JobId) (l : List Record) : Nat := (l.filter fun r => r.job = j).length

/-- The purge of a job's records from its owner's result queue, with the move and the RESULTS check
that follow it (04 R81). -/
def purge (x : Port) (j : JobId) (s : State) : State :=
  let before := (s.session x).results
  let s1 := s.modSession x fun z => { z with results := before.filter fun r => r.job ≠ j }
  let s2 := if 0 < purgeCount j before then heldMove x s1 else s1
  resultsCheck x before s2

/-- A result enters the unit at its run end: it is queued and the job takes its return state, or it is
held (04 R76). `b` is the job's record less its state. -/
def postResult (j : JobId) (b : Job) (r : Record) (s : State) : State :=
  let before := (s.session b.owner).results
  if before.length < Config.resultQueueSize then
    resultsCheck b.owner before
      ((s.putJob j (some { b with state := b.returnState })).modSession b.owner fun z =>
        { z with results := z.results ++ [r] })
  else
    (s.putJob j (some { b with state := .held r })).modSession b.owner fun z =>
      { z with heldOrder := z.heldOrder ++ [j] }

/-- The class of a value against a band (05 R90). -/
def classify (v low high : Int) : Class :=
  if v < low then .below else if high < v then .above else .inside

/-- The outcome of one classified result: the watch, and the pending list of the owner (05 R95 to
R97, Table 5-2). -/
def watchResult (j : JobId) (v : Int) (run : Word16) (w : Watch) (l : List Entry) :
    Watch × List Entry :=
  let c := classify v w.low w.high
  if c = w.current then (w, l)
  else if l.any (Entry.isAlertOf j) then
    if c = w.reported then ({ w with current := c }, withdrawAlert j l)
    else ({ w with current := c }, foldAlert j c v run l)
  else ({ w with current := c }, l ++ [.alert j c v run 0])

end Sys2Proof.Machine
end

