-- ==== Sys2Proof/Machine/Scheduler.lean ====
section
/-! DEFINITION. The run scheduler and the product-sum unit (03). -/

namespace Sys2Proof.Machine

/-! ### The ready queue -/

/-- A job joins the tail of its class (03 R54: a trigger or JOB_START). -/
def joinTail (c : ClassId) (j : JobId) (s : State) : State := s.putClass c (s.cls c ++ [j])

/-- A job joins the head of its class (03 R54: a park). -/
def joinHead (c : ClassId) (j : JobId) (s : State) : State := s.putClass c (j :: s.cls c)

/-- A job's id is removed from its class, the others keep their order (03 R55). -/
def leaveClass (c : ClassId) (j : JobId) (s : State) : State :=
  s.putClass c ((s.cls c).filter fun k => k ≠ j)

/-- The run scheduler's part in the abandoning of a job's fire (03 R66). -/
def abandon (j : JobId) (b : Job) (s : State) : State :=
  match b.state with
  | .ready | .parked _ => leaveClass b.par.priority j s
  | .running => { s with psu := none }
  | .defined | .armed | .held _ => s

/-- The job at the head of the highest non-empty class, with its class (03 R56). -/
def nextToRun (s : State) : Option (ClassId × JobId) :=
  match s.cls 3, s.cls 2, s.cls 1, s.cls 0 with
  | j :: _, _, _, _ => some (3, j)
  | [], j :: _, _, _ => some (2, j)
  | [], [], j :: _, _ => some (1, j)
  | [], [], [], j :: _ => some (0, j)
  | [], [], [], [] => none

/-- The run that a waiting job begins or resumes: `none` when it is neither READY nor PARKED (log 18). -/
def runOf (j : JobId) (b : Job) : Option Run :=
  match b.state with
  | .ready =>
    some { job := j, acc := b.par.preset * 2 ^ b.par.presetShift, next := 0, sat := false }
  | .parked p => some { job := j, acc := p.acc, next := p.next, sat := p.sat }
  | _ => none

/-- The start of a READY job (03 R57) or the resumption of a PARKED one (03 R58) from the head of its
class. -/
def startJob (c : ClassId) (j : JobId) (s : State) : State :=
  match s.job j with
  | some b =>
    match runOf j b with
    | some run =>
      { (s.putClass c (s.cls c).tail).putJob j (some { b with state := .running }) with
        psu := some run }
    | none => s
  | none => s

/-- The start step: a happening that leaves the PSU IDLE and the ready queue non-empty ends with it
(03 R56). -/
def startStep (s : State) : State :=
  match s.psu with
  | some _ => s
  | none =>
    match nextToRun s with
    | some (c, j) => startJob c j s
    | none => s

/-! ### Products -/

/-- The sample with index `i` of a ring (01 R3). A job's ring is ACTIVE (01 R6); a missing one would
read a free value (log 18). -/
def sampleAt (s : State) (r : RingId) (i : Nat) : Word16 :=
  match s.ring r with
  | some g => s.readSample (g.base + i % g.capacity)
  | none => Config.staleSample s.epoch i

/-- The coefficient with offset `k` of a set (06 R105). -/
def coefAt (s : State) (c : SetId) (k : Nat) : Word16 :=
  match s.coef c with
  | some v => s.readCoef (v.base + k)
  | none => Config.staleCoefficient s.epoch k

/-- The accumulator's clamp, and whether it acts (03 R59). -/
def clampAcc (a : Int) : Int × Bool :=
  if Config.accMax < a then (Config.accMax, true)
  else if a < Config.accMin then (Config.accMin, true)
  else (a, false)

/-- One addition: exact product, exact sum, clamp; saturation seen stays yes (03 R59). -/
def addProduct (x c : Word16) (run : Run) : Run :=
  let t := clampAcc (run.acc + x.toInt * c.toInt)
  { run with acc := t.1, next := run.next + 1, sat := run.sat || t.2 }

/-- The next `n` products of a run of job `b` (03 R59): sample w + k with coefficient k, k ascending. -/
def addProducts (s : State) (b : Job) : Nat → Run → Run
  | 0, run => run
  | n + 1, run =>
    addProducts s b n
      (addProduct (sampleAt s b.ring (b.windowStart + run.next)) (coefAt s b.set run.next) run)

/-- Whether a run still has a non-final segment end before it: a SEGMENTED run whose next multiple of
64 products lies below L (03 R60). -/
def hasSegmentEnd (b : Job) (run : Run) : Bool :=
  b.par.mode = .segmented && run.next + Config.segment < b.par.length

/-- Whether a class above a priority holds a job (03 R61). -/
def higherWaiting (c : ClassId) (s : State) : Bool :=
  [0, 1, 2, 3].any fun d : ClassId => c < d && !(s.cls d).isEmpty

/-- The run in flight parks (03 R62, steps 1 to 4). -/
def park (b : Job) (run : Run) (s : State) : State :=
  joinHead b.par.priority run.job
    { s.putJob run.job (some { b with
        state := .parked { acc := run.acc, next := run.next, sat := run.sat }, preempted := true }) with
      psu := none }

/-- A non-final segment end: the run parks when a higher class is non-empty, else it goes on
(03 R61). -/
def segmentEnd (b : Job) (run : Run) (s : State) : State :=
  let run' := addProducts s b Config.segment run
  if higherWaiting b.par.priority s then park b run' s else { s with psu := some run' }

/-! ### Run end -/

/-- The rounding right shift (03 R63). -/
def roundShift (a : Int) (n : Nat) : Int :=
  match n with
  | 0 => a
  | m + 1 => (a + 2 ^ m) / 2 ^ (m + 1)

/-- The output clamp, and whether it acts (03 R63). -/
def clampValue (v : Int) : Int × Bool :=
  if Config.valueMax < v then (Config.valueMax, true)
  else if v < Config.valueMin then (Config.valueMin, true)
  else (v, false)

/-- The result record of a finished run (03 R63, R64). -/
def formRecord (b : Job) (run : Run) : Record :=
  let t := clampValue (roundShift run.acc b.par.outputShift)
  { job := run.job, run := b.runNumber, trigger := BitVec.ofNat 32 b.triggerHead, value := t.1,
    sat := run.sat || t.2, extra := b.extra, preempted := b.preempted }

/-- The watch unit's step at a run end (03 R65 step 2, 05 R94): the job's watch and the owner's pending
list after it. -/
def watchStep (j : JobId) (r : Record) (b : Job) (l : List Entry) : Option Watch × List Entry :=
  match b.watch with
  | none => (none, l)
  | some w => let t := watchResult j r.value r.run w l; (some t.1, t.2)

/-- The run end: the rest of the products, the record, the watch, the result unit (03 R63 to R65, less
the start step). -/
def runEnd (b : Job) (run : Run) (s : State) : State :=
  let r := formRecord b (addProducts s b (b.par.length - run.next) run)
  let t := watchStep run.job r b (s.session b.owner).pendingList
  let b' := { b with
    runNumber := b.runNumber + 1, completed := bump Config.counterLimit b.completed, watch := t.1 }
  postResult run.job b' r
    ({ s with psu := none }.modSession b.owner fun z => { z with pendingList := t.2 })

end Sys2Proof.Machine
end

