-- ==== Sys2Proof/Machine/Flags.lean ====
section
/-! DEFINITION. What is derived from the state and never held: the pin of a ring, which session the command
processor serves, the notice unit's offer, the outputs ATTN, UTX and SDO, and what has fallen due. -/

namespace Sys2Proof.Machine

/-- READY, RUNNING and PARKED jobs pin their ring (01 R4, 02 Table 2-2). -/
def JobState.pins : JobState → Bool
  | .ready | .running | .parked _ => true
  | .defined | .armed | .held _ => false

/-- The job pins ring `r`. -/
def Job.pinsRing (b : Job) (r : RingId) : Bool := b.ring = r && b.state.pins

/-- The jobs that pin a ring and whose window start meets `q`, in ascending id (01 R11, R12, R19). -/
def pinners (r : RingId) (q : Nat → Bool) (s : State) : List JobId :=
  allJobs.filter fun j => match s.job j with
    | some b => b.pinsRing r && q b.windowStart
    | none => false

/-- The pin of a ring: the lowest window start among its pinning jobs (01 R4). -/
def pin (r : RingId) (s : State) : Option Nat :=
  (allJobs.filterMap fun j => match s.job j with
    | some b => if b.pinsRing r then some b.windowStart else none
    | none => none).min?

/-- The head of a ring. -/
def headOf (r : RingId) (s : State) : Nat := ((s.ring r).map Ring.head).getD 0

/-- The fill of a ring. -/
def fillOf (r : RingId) (s : State) : Nat := ((s.ring r).map Ring.fill).getD 0

/-- A port's reply FIFO has room (10 R179). -/
def fifoRoom (p : Port) (s : State) : Bool := (s.port p).fifo.length < Config.replyFifoSize

/-- A session qualifies for the command processor (08 R144). -/
def qualifies (x : Port) (s : State) : Bool := !(s.session x).queue.isEmpty && fifoRoom x s

/-- The session the command processor serves next: the qualifying one, and of two the one that the
last-served marker does not name (08 R144). -/
def served (s : State) : Option Port :=
  match qualifies .u s, qualifies .s s with
  | true, true => some (otherPort s.lastServed)
  | true, false => some .u
  | false, true => some .s
  | false, false => none

/-- The command that the command processor executes next for session `x`, with the commands behind
it: `none` when `x` is not the session served (08 R143, R144). -/
def nextCommand (x : Port) (s : State) : Option (Command × List Command) :=
  match (s.session x).queue with
  | c :: rest => if served s = some x then some (c, rest) else none
  | [] => none

/-- What a notice unit offers its arbiter (09 R156). -/
inductive Offer where
  | nothing
  | again (n : Notice)
  | fresh (e : Entry) (rest : List Entry)
deriving DecidableEq, Repr

/-- The offer of a session's notice unit: the oldest marked notice, else the head of the pending list
when fewer than 4 are in flight (09 R156). -/
def offer (x : Port) (s : State) : Offer :=
  let z := s.session x
  if z.isOpen then
    match z.inFlight.find? Notice.marked with
    | some n => .again n
    | none =>
      match z.pendingList with
      | e :: rest => if z.inFlight.length < Config.inFlightSize then .fresh e rest else .nothing
      | [] => .nothing
  else .nothing

/-- The frame a port's transmitter holds: that of port U while SENDING, the current one of port S. -/
def transmitting (p : Port) (s : State) : Option Frame :=
  match p with
  | .u => s.txU
  | .s => s.txS.current.map Outbound.frame

/-- A notice in flight is at this moment being transmitted: the port's transmitter holds the NOTICE
frame with its sequence number (09 R157, R162; log 21). -/
def beingSent (p : Port) (n : Notice) (s : State) : Bool :=
  match transmitting p s with
  | some f => f.kind = kindNotice && f.seq = n.frame.seq
  | none => false

/-- The ATTN output of port S (10 R178). -/
def attn (s : State) : Bool :=
  !(s.port .s).fifo.isEmpty
    || (match s.txS.current with | some o => o.position < o.frame.size | none => false)
    || offer .s s != .nothing

/-- Port U is sending: UTX carries the bytes of a frame; it idles at mark otherwise (10 R174). -/
def utxBytes (s : State) : Option (List Byte) := s.txU.map Frame.bytes

/-- The byte SDO presents in the exchange under way: the next byte of the current frame, or the
filler byte (10 R177); `none` while SSEL is high, when SDO is not driven, and before an exchange has
begun (10 R175). -/
def sdoByte (s : State) : Option Byte :=
  if s.txS.selected then
    match s.txS.current with
    | some o => o.frame.bytes[o.position]?
    | none => if s.txS.filler then some 0x00 else none
  else none

/-- The expiry a session's notice timer follows to: the sent-at of the oldest notice in flight plus
the session's notice timeout; stopped when there is none (09 R158). -/
def Session.timerLaw (z : Session) : Option Nat :=
  match z.inFlight with
  | n :: _ => n.sentAt.map (· + z.timeout)
  | [] => none

/-- The count at which the gap limit of port U falls due: 5 ms are exceeded when the count has
advanced by 6 (10 R172, R181). -/
def gapDue (s : State) : Option Nat :=
  match (s.port .u).rx with
  | .hunt => none
  | _ => some (s.lastByteAt + Config.gapLimit + 1)

/-- The count at which port U last had URX in view: the end of the last byte delivered, a framing error or
a link reset (10 R171, R172, R173). URX changes to space for the next byte no earlier. -/
def urxSeenAt (s : State) : Nat :=
  match s.urx with
  | .following => s.lastByteAt
  | .atSpace _ seen | .broken seen => seen

/-- The count at which URX last changed to space, at a framing error (10 R173). The change fell into the
byte, which lasts less than 0.1 ms (10 R171): the count has advanced by one since, or not at all. -/
def spaceSince (counted : Bool) (s : State) : Nat :=
  if counted ∧ urxSeenAt s < s.ms then s.ms - 1 else s.ms

/-- The count at which a break of port U falls due: URX has been at space for 10 ms, as the count has
advanced since it went there (10 R173, R181). -/
def breakDue (s : State) : Option Nat :=
  match s.urx with
  | .atSpace since _ => some (since + Config.breakTime)
  | .following | .broken _ => none

/-- No other timed happening falls due before the count `t`: either the count has reached `t`, or
every running timer is set for `t` or later (log 4). -/
def quietUntil (t : Nat) (s : State) : Bool :=
  t ≤ s.ms || ([(s.session .u).timer, (s.session .s).timer, gapDue s].all fun d =>
    match d with
    | some t' => t ≤ t'
    | none => true)

end Sys2Proof.Machine
end

