-- ==== Sys2Proof/Machine/Objects.lean ====
section
/-! DEFINITION. Shared operations on rings, sets and jobs: freeing, references, samples written, countdowns and
triggers, eviction, deletion (01, 02, 06). -/

namespace Sys2Proof.Machine

/-! ### Freeing and references -/

/-- The channel of a ring, if its source is one, becomes unbound (01 R1, R8). -/
def unbind (src : Source) (s : State) : State :=
  match src with
  | .channel c => s.putBinding c none
  | .host => s

/-- A ring is freed: extent, channel and record in one step (01 R1). -/
def freeRing (r : RingId) (s : State) : State :=
  match s.ring r with
  | some g =>
    (unbind g.source { s with sampleFree := freeExtent g.base g.capacity s.sampleFree }).putRing r none
  | none => s

/-- A set is freed: extent and record in one step (06 R104). -/
def freeSet (c : SetId) (s : State) : State :=
  match s.coef c with
  | some v => { s with coefFree := freeExtent v.base v.length s.coefFree }.putCoef c none
  | none => s

/-- The orphaned flag of a set; a LOADING set has none (06 Table 6-1). -/
def CoefSet.isOrphaned (v : CoefSet) : Bool :=
  match v.phase with
  | .ready o _ => o
  | .loading => false

/-- The reference count of a ring increases by one (01 R6). -/
def refRing (r : RingId) (s : State) : State :=
  match s.ring r with
  | some g => s.putRing r (some { g with refs := g.refs + 1 })
  | none => s

/-- The reference count of a ring decreases by one; an orphaned ring that it brings to 0 is freed at
once (01 R6, R7). -/
def unrefRing (r : RingId) (s : State) : State :=
  match s.ring r with
  | some g =>
    let s1 := s.putRing r (some { g with refs := g.refs - 1 })
    if g.orphaned ∧ g.refs - 1 = 0 then freeRing r s1 else s1
  | none => s

/-- The reference count of a set increases by one (06 R106). -/
def refSet (c : SetId) (s : State) : State :=
  match s.coef c with
  | some v => s.putCoef c (some { v with refs := v.refs + 1 })
  | none => s

/-- The reference count of a set decreases by one; an orphaned set that it brings to 0 is freed at
once (06 R106, R107). -/
def unrefSet (c : SetId) (s : State) : State :=
  match s.coef c with
  | some v =>
    let s1 := s.putCoef c (some { v with refs := v.refs - 1 })
    if v.isOrphaned ∧ v.refs - 1 = 0 then freeSet c s1 else s1
  | none => s

/-! ### Triggers and countdowns -/

/-- A job fires on the newest L samples below a head: it becomes READY at the tail of its class
(02 R36, R38). -/
def fire (j : JobId) (b : Job) (head : Nat) (extra : Bool) (s : State) : State :=
  joinTail b.par.priority j
    (s.putJob j (some { b with
      state := .ready, windowStart := head - b.par.length, triggerHead := head, extra := extra,
      preempted := false }))

/-- A trigger meets a job in its present state: skipped, fired or missed (02 R34 to R37). `b` is the
job's record with its countdown reloaded. -/
def trigger (j : JobId) (b : Job) (head fill : Nat) (s : State) : State :=
  if fill < b.par.length then
    s.putJob j (some { b with skipped := bump Config.counterLimit b.skipped })
  else
    match b.state with
    | .armed => fire j b head false s
    | .ready | .running | .parked _ | .held _ =>
      (s.putJob j (some { b with missed := bump Config.counterLimit b.missed })).modSession b.owner
        fun z => { z with pendingList := requestOverrun j z.pendingList }
    | .defined => s.putJob j (some b)

/-- A countdown step reaches one job: an armed job of the ring decrements its countdown, and at 0
reloads it with the stride and meets a trigger (02 R34). -/
def countdownJob (r : RingId) (head fill : Nat) (s : State) (j : JobId) : State :=
  match s.job j with
  | some b =>
    if b.armed ∧ b.ring = r then
      if b.countdown ≤ 1 then trigger j { b with countdown := b.par.stride } head fill s
      else s.putJob j (some { b with countdown := b.countdown - 1 })
    else s
  | none => s

/-- The countdown step of a ring, its jobs in ascending id, with the head and fill that the write
leaves (01 R13). -/
def countdownStep (r : RingId) (head fill : Nat) (s : State) : State :=
  allJobs.foldl (countdownJob r head fill) s

/-- A ring's record after one more sample (01 R2). -/
def Ring.taken (g : Ring) : Ring :=
  { g with head := g.head + 1, fill := min (g.fill + 1) g.capacity }

/-- One sample is stored as index head, and the countdown step is taken for it (01 R2, R3, R13). -/
def writeSample (r : RingId) (g : Ring) (v : Word16) (s : State) : State :=
  countdownStep r g.taken.head g.taken.fill
    ({ s with sampleMem := s.sampleMem.write (g.base + g.head % g.capacity) v }.putRing r
      (some g.taken))

/-! ### Eviction -/

/-- The eviction of one job with cause WINDOW_LOST and a ring id (01 R11, 02 R39, R40). -/
def evict (r : RingId) (s : State) (j : JobId) : State :=
  match s.job j with
  | some b =>
    ((abandon j b s).putJob j (some { b with
        state := b.returnState, lost := bump Config.counterLimit b.lost })).modSession b.owner
      fun z => { z with pendingList := requestFault j r z.pendingList }
  | none => s

/-- The eviction of several jobs in the order given (01 R11). -/
def evictAll (r : RingId) (js : List JobId) (s : State) : State := js.foldl (evict r) s

/-! ### Deletion -/

/-- Step 1 of a deletion: any fire in progress ends without a result, a held result is discarded
(02 R45, 04 R77). -/
def endFire (j : JobId) (b : Job) (s : State) : State :=
  match b.state with
  | .held _ =>
    s.modSession b.owner fun z => { z with heldOrder := z.heldOrder.filter fun k => k ≠ j }
  | _ => abandon j b s

/-- The five steps of the deletion of a job (02 R45). -/
def deleteJob (j : JobId) (s : State) : State :=
  match s.job j with
  | some b =>
    let s2 := purge b.owner j (endFire j b s)
    let s3 := s2.modSession b.owner fun z => { z with pendingList := withdrawJob j z.pendingList }
    (unrefSet b.set (unrefRing b.ring s3)).putJob j none
  | none => s

end Sys2Proof.Machine
end

