-- ==== Sys2Proof/Machine/Ports.lean ====
section
/-! DEFINITION. Sending and its timer (09), the transmit arbiter and the transmitters (10 R174 to R180), replies
placed in a FIFO (10 R179), and the end that every happening has: the start step and the port U
transmitter's asking (03 R56, 10 R180). -/

namespace Sys2Proof.Machine

/-! ### The notice timer (09 R158) -/

/-- The notice timer is set afresh from the oldest notice in flight (09 R158). -/
def setTimer (x : Port) (s : State) : State :=
  s.modSession x fun z => { z with timer := z.timerLaw }

/-! ### Sending (09 R157, R159) -/

/-- The notice frame formed from an entry (09 R157, step 2). -/
def noticeFrame (z : Session) (e : Entry) : Frame :=
  { kind := kindNotice, seq := z.noticeSeq, payload := e.payload z.results.length }

/-- The watch unit's part in the sending of an ALERT: the reported class of the job's watch becomes the
class of the notice (05 R98; 09 R157, step 3). -/
def reportClass (e : Entry) (s : State) : State :=
  match e with
  | .alert j c _ _ _ =>
    match s.job j with
    | some b =>
      match b.watch with
      | some w => s.putJob j (some { b with watch := some { w with reported := c } })
      | none => s
    | none => s
  | _ => s

/-- The sending of the head of the pending list; `rest` is the list behind it (09 R157, steps 1 to
4). -/
def sendEntry (x : Port) (e : Entry) (rest : List Entry) (s : State) : State :=
  (reportClass e s).modSession x fun z =>
    { z with
      pendingList := rest
      inFlight := z.inFlight ++ [{ frame := noticeFrame z e, marked := false, sentAt := none }]
      noticeSeq := z.noticeSeq + 1 }

/-- The oldest marked notice loses its mark and its sent-at (09 R159). -/
def unmarkFirst : List Notice → List Notice
  | [] => []
  | n :: rest =>
    if n.marked then { n with marked := false, sentAt := none } :: rest else n :: unmarkFirst rest

/-- The retransmission of the oldest marked notice (09 R159). -/
def resend (x : Port) (s : State) : State :=
  s.modSession x fun z => { z with inFlight := unmarkFirst z.inFlight }

/-- The transmit arbiter's choice and the state it leaves: a reply, else the notice offered, else
nothing (10 R180). -/
def arbiter (p : Port) (s : State) : Option Frame × State :=
  match (s.port p).fifo with
  | f :: rest => (some f, s.modPort p fun q => { q with fifo := rest })
  | [] =>
    match offer p s with
    | .again n => (some n.frame, resend p s)
    | .fresh e rest => (some (noticeFrame (s.session p) e), sendEntry p e rest s)
    | .nothing => (none, s)

/-! ### The transmitters -/

/-- The port U transmitter asks the arbiter while it is IDLE, and begins what it is given
(10 R174, R180). -/
def askU (s : State) : State :=
  match s.txU with
  | some _ => s
  | none => { (arbiter .u s).2 with txU := (arbiter .u s).1 }

/-- The arbiter's answer at port S: its frame becomes the current one, and with none the filler byte is
presented (10 R177). -/
def askS (s : State) : State :=
  match arbiter .s s with
  | (some f, s') =>
    { s' with txS := { s'.txS with current := some { frame := f, position := 0 }, filler := false } }
  | (none, s') => { s' with txS := { s'.txS with current := none, filler := true } }

/-- SSEL is low: the select window of port S is open (10 R175). -/
def select (s : State) : State := { s with txS := { s.txS with selected := true } }

/-- The notice whose transmission has ended takes its sent-at, when it is still in flight and carries
no mark, and the timer is set afresh (09 R158). A frame that is no notice changes nothing here. -/
def noticeSent (x : Port) (f : Frame) (s : State) : State :=
  if f.kind = kindNotice then
    setTimer x (s.modSession x fun z =>
      { z with inFlight := z.inFlight.map fun n =>
          if n.frame.seq = f.seq ∧ ¬ n.marked then { n with sentAt := some s.ms } else n })
  else s

/-- The end of a transmission on port S, when every byte of the current frame has counted as sent
(10 R177). -/
def endS (s : State) : State :=
  match s.txS.current with
  | some o =>
    if o.frame.size ≤ o.position then
      noticeSent .s o.frame { s with txS := { s.txS with current := none, filler := false } }
    else s
  | none => s

/-- The start of a byte exchange within a select window (10 R175, R177): a transmission that had ended is
over, and without a current frame the arbiter is asked, unless the filler byte is being exchanged
already or is presented again, since SSEL cut it short. -/
def startExchange (s : State) : State :=
  let s1 := select (endS s)
  if s1.txS.current.isNone ∧ ¬ s1.txS.filler then askS s1 else s1

/-- The outgoing half of a byte exchange that is complete (10 R175, R177; log 7): an exchange whose start
was not commanded starts first, and the byte of the current frame counts as sent. -/
def exchangeS (s : State) : State :=
  let s1 := startExchange s
  match s1.txS.current with
  | some o =>
    { s1 with txS := { s1.txS with current := some { o with position := o.position + 1 }, filler := false } }
  | none => { s1 with txS := { s1.txS with filler := false } }

/-! ### Replies, line errors, the end of a happening -/

/-- A frame is placed at the tail of a port's reply FIFO (10 R179). -/
def place (p : Port) (f : Frame) (s : State) : State :=
  s.modPort p fun q => { q with fifo := q.fifo ++ [f] }

/-- A refusal or replay is placed only when the FIFO has room; else the frame that caused it is
discarded unanswered (08 R141). -/
def placeIfRoom (p : Port) (f : Frame) (s : State) : State :=
  if fifoRoom p s then place p f s else s

/-- The FIFO of a port is cleared (08 R150, 10 R179). -/
def clearFifo (p : Port) (s : State) : State := s.modPort p fun q => { q with fifo := [] }

/-- A port's line error count increases by one and stops at 65535 (10 R170). -/
def lineError (p : Port) (s : State) : State :=
  s.modPort p fun q => { q with lineErrors := bump Config.countLimit q.lineErrors }

/-- The partial frame of a port is discarded and counted (10 R171, R172, R176). -/
def dropPartial (p : Port) (s : State) : State :=
  lineError p (s.modPort p fun q => { q with rx := .hunt })

/-- The end of every happening: the start step (03 R56), then the port U transmitter asks while it is
IDLE (10 R180; log 6). A reply placed while port U is IDLE therefore leaves the FIFO in the happening
that placed it, and a link reset or notice loss that follows does not take it back: it clears the FIFO,
and a frame whose transmission has begun is completed (08 R150; 10 R173, R174, R179). The reply that 08
R152 has cleared is the one that waits in the FIFO (DEDUCED, log 26). -/
def finish (s : State) : State := askU (startStep s)

end Sys2Proof.Machine
end

