-- ==== Sys2Proof/Machine/Sessions.lean ====
section
/-! DEFINITION. Teardown and opening of a session, the execution of a command, sequence acceptance,
acknowledgement, timeout and session loss (08, 09). -/

namespace Sys2Proof.Machine

/-! ### Teardown (08 R149) -/

/-- Step 1: the LOADING set of an open load context is freed and the context closes (06 R118). -/
def closeLoad (x : Port) (s : State) : State :=
  match (s.session x).load with
  | some l => (freeSet l.set s).modSession x fun z => { z with load := none }
  | none => s

/-- Step 2, for one job: a job the session owns is deleted (02 R46). -/
def deleteOwned (x : Port) (s : State) (j : JobId) : State :=
  match s.job j with
  | some b => if b.owner = x then deleteJob j s else s
  | none => s

/-- Step 3, for one ring: a ring the session owns is freed, or orphaned when jobs still name it
(01 R23). -/
def leaveRing (x : Port) (s : State) (r : RingId) : State :=
  match s.ring r with
  | some g =>
    if g.owner = some x then
      if g.refs = 0 then freeRing r s
      else s.putRing r (some { g with owner := none, orphaned := true })
    else s
  | none => s

/-- Step 3, for one set: a READY set the session owns is freed, or orphaned when jobs still name it
(06 R118). -/
def leaveSet (x : Port) (s : State) (c : SetId) : State :=
  match s.coef c with
  | some v =>
    match v.phase with
    | .ready _ crc =>
      if v.owner = some x then
        if v.refs = 0 then freeSet c s
        else s.putCoef c (some { v with owner := none, phase := .ready true crc })
      else s
    | .loading => s
  | none => s

/-- The teardown of a session, steps 1 to 6, less the start step that ends the happening
(08 R149). -/
def teardown (x : Port) (s : State) : State :=
  let s1 := closeLoad x s
  let s2 := allJobs.foldl (deleteOwned x) s1
  let s3 := allRings.foldl (leaveRing x) s2
  let s4 := allSets.foldl (leaveSet x) s3
  s4.putSession x Session.closed

/-- The teardown of a session that is OPEN; a CLOSED one has nothing to tear down (08 R150). -/
def teardownIfOpen (x : Port) (s : State) : State :=
  if (s.session x).isOpen then teardown x s else s

/-! ### HELLO (08 R133 to R135) -/

/-- The data of the HELLO reply (11 Table 11-5, 08 R134). -/
def helloData (x : Port) (timeout : Nat) (notify reopened : Bool) : List Byte :=
  [sessionCode x] ++ leBytes 2 Config.partCode ++ [4, 8, 16, 32]
    ++ leBytes 2 Config.sampleMemorySize ++ leBytes 2 Config.coefMemorySize ++ [32, 4, 4, 8]
    ++ leBytes 2 timeout ++ [flagByte notify, flagByte reopened]

/-- The opening of a session (08 R134). -/
def openSession (x : Port) (timeout : Nat) (notify : Bool) (s : State) : State :=
  s.modSession x fun z =>
    { z with isOpen := true, expected := 1, timeout := timeout, resultsNotify := notify,
             noticeSeq := 0, retry := 0, timer := none }

/-- The notice timeout a HELLO carries is 0 or a multiple of 10 from 10 to 1000 (08 R133, check 3). -/
def validTimeout (t : Nat) : Bool := t = 0 || (t % 10 = 0 && 10 ≤ t && t ≤ 1000)

/-- A HELLO at its arrival while the FIFO has room (08 R133 to R135): a refusal, or the session opens,
through a teardown when it is OPEN. -/
def takeHello (x : Port) (f : Frame) (s : State) : State :=
  let no (st : Status) := place x (replyFrame f.seq st codeHello []) s
  match f.payload with
  | [_, t0, t1, notify] =>
    let t := leNat [t0, t1]
    if f.seq ≠ 0 then no .badArg
    else if ¬ validTimeout t then no .badArg
    else if 1 < notify.toNat then no .badArg
    else
      let timeout := if t = 0 then Config.defaultTimeout else t
      let on : Bool := notify = 1
      let reopened := (s.session x).isOpen
      place x (replyFrame 0 .ok codeHello (helloData x timeout on reopened))
        (openSession x timeout on (teardownIfOpen x s))
  | _ => no .badLength

/-- A HELLO that meets a full FIFO is discarded whole (08 R133). -/
def arriveHello (x : Port) (f : Frame) (s : State) : State :=
  if fifoRoom x s then takeHello x f s else s

/-! ### Sequence acceptance (08 R136 to R141) -/

/-- A COMMAND frame other than HELLO arrives for an OPEN session (08 R137, Table 8-2). -/
def accept (x : Port) (f : Frame) (s : State) : State :=
  let z := s.session x
  if f.seq = z.expected then
    if z.queue.length < Config.commandQueueSize then
      s.putSession x { z with
        queue := z.queue ++ [{ seq := f.seq, payload := f.payload }], expected := z.expected + 1 }
    else placeIfRoom x (replyFrame f.seq .busy (codeOf f.payload) []) s
  else if z.queue.any fun c => c.seq = f.seq then s
  else
    match z.cache.find? fun r => r.seq = f.seq with
    | some r => placeIfRoom x r s
    | none => placeIfRoom x (replyFrame f.seq .sequence (codeOf f.payload) [z.expected]) s

/-- A COMMAND frame arrives at its session: HELLO (R133), the NOT_OPEN refusal (R136) or sequence
acceptance (R137). -/
def arriveCommand (x : Port) (f : Frame) (s : State) : State :=
  if codeOf f.payload = codeHello then arriveHello x f s
  else if (s.session x).isOpen then accept x f s
  else placeIfRoom x (replyFrame f.seq .notOpen (codeOf f.payload) []) s

/-! ### Acknowledgement (09 R160, R161) -/

/-- The notices younger than the one with a sequence number; `none` when none carries it. -/
def younger (q : Byte) : List Notice → Option (List Notice)
  | [] => none
  | n :: rest => if n.frame.seq = q then some rest else younger q rest

/-- An ACK frame arrives at its session: cumulative acknowledgement (R160), or ignored (R161). -/
def arriveAck (x : Port) (f : Frame) (s : State) : State :=
  if f.payload.isEmpty ∧ (s.session x).isOpen then
    match younger f.seq (s.session x).inFlight with
    | some rest => setTimer x (s.modSession x fun z => { z with inFlight := rest, retry := 0 })
    | none => s
  else s

/-! ### Timeout and session loss (09 R162, R163) -/

/-- The expiry marks every notice in flight that is not being transmitted (09 R162). -/
def markAll (x : Port) (s : State) : State :=
  setTimer x (s.modSession x fun z =>
    { z with
      inFlight := z.inFlight.map fun n =>
        if beingSent x n s then n else { n with marked := true, sentAt := none }
      retry := z.retry + 1 })

/-- The expiry of a session's notice timer: retransmission marks, or the loss of the session
(09 R162, R163). -/
def expire (x : Port) (s : State) : State :=
  if (s.session x).retry < Config.maxRetries then markAll x s
  else clearFifo x (teardownIfOpen x s)

/-- An ACK frame makes progress: it names a notice in flight (09 R160). -/
def acknowledges (x : Port) (f : Frame) (s : State) : Bool :=
  f.kind = kindAck && f.payload.isEmpty && (s.session x).isOpen &&
    (younger f.seq (s.session x).inFlight).isSome

/-- A notice timer set at or before the present time expires as soon as the happening that set it is
over (09 R158). -/
def expireOverdue (x : Port) (s : State) : State :=
  match (s.session x).timer with
  | some t => if t ≤ s.ms then finish (expire x s) else s
  | none => s

/-! ### The execution of a command (08 R145, R146) -/

/-- What the owning block answers: the state it leaves, the reply's status and its data. -/
structure Answer where
  state : State
  status : Status
  data : List Byte
deriving DecidableEq, Repr

/-- A reply enters the cache; the earliest of 8 makes room (08 R146). -/
def cacheReply (f : Frame) (l : List Frame) : List Frame :=
  (if l.length < Config.replyCacheSize then l else l.tail) ++ [f]

/-- Step 4: the reply is cached and placed in the port's reply FIFO (08 R145). -/
def reply (x : Port) (f : Frame) (s : State) : State :=
  place x f (s.modSession x fun z => { z with cache := cacheReply f z.cache })

/-- Step 1: the command leaves the head of the queue, and the marker names its session
(08 R144, R145). -/
def takeCommand (x : Port) (rest : List Command) (s : State) : State :=
  { s.modSession x fun z => { z with queue := rest } with lastServed := x }

/-- The execution of the command at the head of the queue of session `x`, when `x` is served next and
the command carries the code: steps 1 to 4 of 08 R145. `act` is the owning block on the argument
bytes; it answers `none` when the payload length is not the one the code calls for (11 R185), which is
refused BAD_LENGTH. The outer `none`: the happening does not take place. -/
def execute (x : Port) (code : Byte) (act : List Byte → State → Option Answer) (s : State) :
    Option State :=
  match nextCommand x s with
  | some (c, rest) =>
    if c.payload.head? = some code then
      let s1 := takeCommand x rest s
      match act c.payload.tail s1 with
      | some a => some (reply x (replyFrame c.seq a.status code a.data) a.state)
      | none => some (reply x (replyFrame c.seq .badLength code []) s1)
    else none
  | none => none

/-- The whole happening of an execution, with the start step and the port U transmitter's asking at
its end (08 R145 step 5); a happening that does not take place changes nothing (log 2). -/
def runCommand (x : Port) (code : Byte) (act : List Byte → State → Option Answer) (s : State) : State :=
  match execute x code act s with
  | some s' => finish s'
  | none => s

end Sys2Proof.Machine
end

