-- ==== Sys2Proof/Machine/Receivers.lean ====
section
/-! DEFINITION. The frame receivers and the resolution of frames (10 R168 to R173, R176). -/

namespace Sys2Proof.Machine

/-- What a receiver makes of one byte. -/
inductive RxEvent where
  | nothing
  | lengthError
  | complete (f : Frame) (good : Bool)
deriving DecidableEq, Repr

/-- The receiver once the LEN byte is taken (10 R168). -/
def takeLen (kind seq len : Byte) : Receiver × RxEvent :=
  if Config.maxPayload < len.toNat then (.hunt, .lengthError)
  else if len = 0 then (.check { kind := kind, seq := seq, payload := [] } none, .nothing)
  else (.payload kind seq len [], .nothing)

/-- A receiver takes one byte in its present state (10 R168). -/
def Receiver.take : Receiver → Byte → Receiver × RxEvent
  | .hunt, b => if b = 0xA5 then (.header [], .nothing) else (.hunt, .nothing)
  | .header [kind, seq], b => takeLen kind seq b
  | .header taken, b => (.header (taken ++ [b]), .nothing)
  | .payload kind seq len taken, b =>
    if taken.length + 1 < len.toNat then (.payload kind seq len (taken ++ [b]), .nothing)
    else (.check { kind := kind, seq := seq, payload := taken ++ [b] } none, .nothing)
  | .check f none, b => (.check f (some b), .nothing)
  | .check f (some lo), b =>
    (.hunt, .complete f (leNat [lo, b] = (crc16 f.covered).toNat))

/-- A complete frame is resolved (10 R169, Table 10-2). -/
def resolve (p : Port) (f : Frame) (good : Bool) (s : State) : State :=
  if ¬ good then lineError p s
  else if f.kind = kindCommand then arriveCommand p f s
  else if f.kind = kindAck then arriveAck p f s
  else if f.kind = kindReply ∨ f.kind = kindNotice then s
  else lineError p s

/-- Port U's own note of a delivered byte: the time of its end, and that URX was seen at mark
(10 R171, R172). -/
def noteByteU (p : Port) (s : State) : State :=
  match p with
  | .u => { s with lastByteAt := s.ms, urx := .following }
  | .s => s

/-- On port S the same exchange counts the outgoing byte as sent (10 R175). -/
def exchange (p : Port) (s : State) : State :=
  match p with
  | .u => s
  | .s => exchangeS s

/-- A byte is delivered to the receiver of a port and taken in its present state (10 R168, R169). -/
def deliver (p : Port) (b : Byte) (s : State) : State :=
  let s1 := noteByteU p (exchange p s)
  let t := (s1.port p).rx.take b
  let s2 := s1.modPort p fun q => { q with rx := t.1 }
  match t.2 with
  | .nothing => s2
  | .lengthError => lineError p s2
  | .complete f good => resolve p f good s2

/-- The frame that a byte would complete, with whether its check is good (10 R169). -/
def completes (p : Port) (b : Byte) (s : State) : Option (Frame × Bool) :=
  match ((s.port p).rx.take b).2 with
  | .complete f good => some (f, good)
  | _ => none

/-- The byte would complete a good ACK frame that makes progress (09 R160). -/
def completesAck (p : Port) (b : Byte) (s : State) : Bool :=
  match completes p b s with
  | some (f, good) => good && acknowledges p f (exchange p s)
  | none => false

/-- The delivery of a byte, with the end of its happening; a notice timer that an ACK set at or before
the present time then expires (10 R168, R169; 09 R158). On port S the same rising edge may also send the
last byte of an outgoing NOTICE (10 R175): the incoming frame, and that expiry, then come before the end
of the notice's transmission, where 09 R165 leaves either order (DESIGN CHOICE, log 27). -/
def hear (p : Port) (b : Byte) (s : State) : State :=
  let t := finish (deliver p b s)
  if completesAck p b s then expireOverdue p t else t

/-- The byte would complete a good HELLO frame (08 R133). -/
def completesHello (p : Port) (b : Byte) (s : State) : Bool :=
  match completes p b s with
  | some (f, good) => good && f.kind = kindCommand && codeOf f.payload = codeHello
  | none => false

/-- The byte would be taken as a LEN byte above 248 (10 R168). -/
def badLen (p : Port) (b : Byte) (s : State) : Bool :=
  match ((s.port p).rx.take b).2 with
  | .lengthError => true
  | _ => false

end Sys2Proof.Machine
end

