-- ==== Sys2Proof/Machine/JobCommands.lean ====
section
/-! DEFINITION. The JOB_ commands (02 R27 to R47, 05 R91 to R93). -/

namespace Sys2Proof.Machine

/-! ### JOB_DEFINE -/

/-- Checks 4 and 5 of 02 R28: the ring named, or the refusal. -/
def defineRing (id : Byte) (s : State) : Except Status (RingId × Ring) :=
  match ringId? id with
  | none => .error .notFound
  | some r =>
    match s.ring r with
    | none => .error .notFound
    | some g => if g.orphaned then .error .orphaned else .ok (r, g)

/-- Checks 6 to 8 of 02 R28: the set named, or the refusal. -/
def defineSet (id : Byte) (s : State) : Except Status (SetId × CoefSet) :=
  match setId? id with
  | none => .error .notFound
  | some c =>
    match s.coef c with
    | none => .error .notFound
    | some v =>
      match v.phase with
      | .loading => .error .notReady
      | .ready orphaned _ => if orphaned then .error .orphaned else .ok (c, v)

/-- Checks 2 and 3 of 02 R28: `none` when the record may be defined by session `x`. -/
def defineOwner (x : Port) (o : Option Job) : Option Status :=
  match o with
  | none => none
  | some b => if b.owner ≠ x then some .notOwner else if b.state ≠ .defined then some .wrongState else none

/-- Checks 4 to 10 of 02 R28, in order: ring, set and parameters, or the refusal. -/
def defineChecks (a : DefineArgs) (s : State) : Except Status (RingId × SetId × Params) :=
  match defineRing a.ring s with
  | .error st => .error st
  | .ok (r, g) =>
    match defineSet a.set s with
    | .error st => .error st
    | .ok (c, v) =>
      if a.length = 0 ∨ Config.maxLength < a.length ∨ g.capacity < a.length ∨ v.length < a.length then
        .error .badArg
      else match a.params? with
      | none => .error .badArg
      | some par => .ok (r, c, par)

/-- The record of a job just defined (02 R29); a redefinition keeps the run number (02 R30). -/
def Job.fresh (x : Port) (r : RingId) (c : SetId) (par : Params) (run : Word16) : Job :=
  { state := .defined, owner := x, ring := r, set := c, par := par, armed := false, countdown := 0,
    windowStart := 0, triggerHead := 0, extra := false, preempted := false, watch := none,
    runNumber := run, completed := 0, missed := 0, skipped := 0, lost := 0 }

/-- A job is defined on an EMPTY record (02 R29, R31). -/
def defineNew (x : Port) (j : JobId) (r : RingId) (c : SetId) (par : Params) (s : State) : State :=
  (refSet c (refRing r s)).putJob j (some (Job.fresh x r c par 0))

/-- A DEFINED job is redefined (02 R30, R31): the new ring's count rises before the old one's falls,
and likewise for the set; a pending ALERT entry is withdrawn. -/
def redefine (x : Port) (j : JobId) (b : Job) (r : RingId) (c : SetId) (par : Params) (s : State) :
    State :=
  let s1 := unrefRing b.ring (refRing r s)
  let s2 := unrefSet b.set (refSet c s1)
  (s2.putJob j (some (Job.fresh x r c par b.runNumber))).modSession x fun z =>
    { z with pendingList := withdrawAlert j z.pendingList }

/-- JOB_DEFINE at the job table (02 R28 to R31). -/
def jobDefine (x : Port) (args : List Byte) (s : State) : Option Answer :=
  match args with
  | [id, ring, set, l0, l1, st0, st1, ph0, ph1, prio, mode, p0, p1, p2, p3, pshift, oshift] =>
    let a : DefineArgs :=
      { ring := ring, set := set, length := leNat [l0, l1], stride := leNat [st0, st1],
        phase := leNat [ph0, ph1], priority := prio, mode := mode, preset := intOf32 [p0, p1, p2, p3],
        presetShift := pshift.toNat, outputShift := oshift.toNat }
    let no (st : Status) : Answer := { state := s, status := st, data := [id] }
    some <| match jobId? id with
    | none => no .badArg
    | some j =>
      match defineOwner x (s.job j) with
      | some st => no st
      | none =>
        match defineChecks a s with
        | .error st => no st
        | .ok (r, c, par) =>
          { state := match s.job j with
              | none => defineNew x j r c par s
              | some b => redefine x j b r c par s
            status := .ok
            data := [id] }
  | _ => none

/-! ### The other job commands -/

/-- The checks of 02 R27 that JOB_ARM, JOB_START, JOB_CANCEL, JOB_DELETE and JOB_WATCH begin with: the
job, or the refusal. -/
def ownedJob (x : Port) (id : Byte) (s : State) : Except Status (JobId × Job) :=
  match jobId? id with
  | none => .error .badArg
  | some j =>
    match s.job j with
    | none => .error .notFound
    | some b => if b.owner ≠ x then .error .notOwner else .ok (j, b)

/-- The countdown that JOB_ARM loads (02 R32). -/
def Params.firstCountdown (p : Params) : Nat := if 0 < p.phase then p.phase else p.stride

/-- JOB_ARM at the job table (02 R32, R33). -/
def jobArm (x : Port) (args : List Byte) (s : State) : Option Answer :=
  match args with
  | [id] =>
    let no (st : Status) : Answer := { state := s, status := st, data := id :: zeros 2 }
    some <| match ownedJob x id s with
    | .error st => no st
    | .ok (j, b) =>
      if b.state = .armed then no .wrongState
      else if b.par.stride = 0 then no .badArg
      else
        { state := s.putJob j (some { b with
            state := if b.state = .defined then .armed else b.state
            armed := true
            countdown := b.par.firstCountdown })
          status := .ok
          data := id :: leBytes 2 b.par.firstCountdown }
  | _ => none

/-- JOB_START at the job table (02 R38). -/
def jobStart (x : Port) (args : List Byte) (s : State) : Option Answer :=
  match args with
  | [id] =>
    let no (st : Status) : Answer := { state := s, status := st, data := id :: zeros 12 }
    some <| match ownedJob x id s with
    | .error st => no st
    | .ok (j, b) =>
      if b.state ≠ .defined ∧ b.state ≠ .armed then no .wrongState
      else if fillOf b.ring s < b.par.length then no .notFilled
      else
        let head := headOf b.ring s
        { state := fire j b head true s
          status := .ok
          data := id :: leBytes 6 (head - b.par.length) ++ leBytes 6 head }
  | _ => none

/-- The job after a JOB_CANCEL (02 R41 to R43): HELD stays HELD with return state DEFINED, every other
state becomes DEFINED. -/
def Job.cancelled (b : Job) : Job :=
  { b with
    state := match b.state with
      | .held r => .held r
      | _ => .defined
    armed := false
    countdown := 0 }

/-- JOB_CANCEL at the job table (02 R41 to R43). -/
def jobCancel (x : Port) (args : List Byte) (s : State) : Option Answer :=
  match args with
  | [id] =>
    let no (st : Status) : Answer := { state := s, status := st, data := id :: zeros 1 }
    some <| match ownedJob x id s with
    | .error st => no st
    | .ok (j, b) =>
      { state := (abandon j b s).putJob j (some b.cancelled)
        status := .ok
        data := [id, b.cancelled.state.code] }
  | _ => none

/-- JOB_DELETE at the job table (02 R44, R45). -/
def jobDelete (x : Port) (args : List Byte) (s : State) : Option Answer :=
  match args with
  | [id] =>
    let no (st : Status) : Answer := { state := s, status := st, data := id :: zeros 1 }
    some <| match ownedJob x id s with
    | .error st => no st
    | .ok (j, b) =>
      { state := deleteJob j s
        status := .ok
        data := [id, BitVec.ofNat 8 (purgeCount j (s.session b.owner).results)] }
  | _ => none

/-- JOB_QUERY at the job table (02 R47). -/
def jobQuery (args : List Byte) (s : State) : Option Answer :=
  match args with
  | [id] =>
    some <| match jobId? id with
    | none => { state := s, status := .badArg, data := id :: zeros 72 }
    | some j =>
      match s.job j with
      | none => { state := s, status := .ok, data := id :: zeros 72 }
      | some b => { state := s, status := .ok, data := id :: jobFigures b }
  | _ => none

/-- The watch that JOB_WATCH SET makes (05 R92). -/
def Watch.fresh (low high : Int) : Watch :=
  { low := low, high := high, current := .unknown, reported := .unknown }

/-- The watch of a job replaced, and its pending ALERT entry withdrawn (05 R92, R93). -/
def putWatch (x : Port) (j : JobId) (b : Job) (w : Option Watch) (s : State) : State :=
  (s.putJob j (some { b with watch := w })).modSession x fun z =>
    { z with pendingList := withdrawAlert j z.pendingList }

/-- JOB_WATCH at the watch unit (05 R91 to R93). -/
def jobWatch (x : Port) (args : List Byte) (s : State) : Option Answer :=
  match args with
  | [id, action, a0, a1, a2, a3, b0, b1, b2, b3] =>
    let low := intOf32 [a0, a1, a2, a3]
    let high := intOf32 [b0, b1, b2, b3]
    let no (st : Status) : Answer := { state := s, status := st, data := id :: zeros 2 }
    some <| match ownedJob x id s with
    | .error st => no st
    | .ok (j, b) =>
      let withdrawn := flagByte ((s.session x).pendingList.any (Entry.isAlertOf j))
      if action = 0x00 then
        { state := putWatch x j b none s, status := .ok, data := [id, 0x00, withdrawn] }
      else if action ≠ 0x01 then no .badArg
      else if high ≤ low then no .badArg
      else
        { state := putWatch x j b (some (Watch.fresh low high)) s
          status := .ok
          data := [id, 0x01, withdrawn] }
  | _ => none

/-- JOB_DEFINE (02 R28 to R31). -/
def execJobDefine (x : Port) (s : State) : Host.Outcome State Fault Refusal :=
  .next (runCommand x 0x40 (jobDefine x) s)

/-- JOB_ARM (02 R32, R33). -/
def execJobArm (x : Port) (s : State) : Host.Outcome State Fault Refusal :=
  .next (runCommand x 0x41 (jobArm x) s)

/-- JOB_START (02 R38). -/
def execJobStart (x : Port) (s : State) : Host.Outcome State Fault Refusal :=
  .next (runCommand x 0x42 (jobStart x) s)

/-- JOB_CANCEL (02 R41 to R43). -/
def execJobCancel (x : Port) (s : State) : Host.Outcome State Fault Refusal :=
  .next (runCommand x 0x43 (jobCancel x) s)

/-- JOB_DELETE (02 R44, R45). -/
def execJobDelete (x : Port) (s : State) : Host.Outcome State Fault Refusal :=
  .next (runCommand x 0x44 (jobDelete x) s)

/-- JOB_QUERY (02 R47). -/
def execJobQuery (x : Port) (s : State) : Host.Outcome State Fault Refusal :=
  .next (runCommand x 0x45 jobQuery s)

/-- JOB_WATCH (05 R91 to R93). -/
def execJobWatch (x : Port) (s : State) : Host.Outcome State Fault Refusal :=
  .next (runCommand x 0x46 (jobWatch x) s)

end Sys2Proof.Machine
end

