-- ==== Sys2Proof/Machine/PortHappenings.lean ====
section
/-! DEFINITION. The happenings at the host ports and at the notice timers (09 R162, 10 R168 to R180). -/

namespace Sys2Proof.Machine

/-! ### Reception -/

/-- BYTE_DELIVERED (10 R168): the receiver takes the byte in its present state, whatever that makes of
it (log 23). -/
def execByteDelivered (p : Port) (b : Byte) (s : State) : Host.Outcome State Fault Refusal :=
  .next (hear p b s)

/-- FRAME_RESOLUTION (10 R169): the byte is the second check byte of a frame. -/
def execFrameResolution (p : Port) (last : Byte) (s : State) : Host.Outcome State Fault Refusal :=
  if (completes p last s).isSome then .next (hear p last s) else .next s

/-- FRAME_LENGTH_ERROR (10 R168): the byte is a LEN byte above 248. -/
def execFrameLengthError (p : Port) (len : Byte) (s : State) : Host.Outcome State Fault Refusal :=
  if badLen p len s then .next (finish (deliver p len s)) else .next s

/-- HELLO (08 R133): the byte is the second check byte of a good HELLO frame. -/
def execHello (p : Port) (last : Byte) (s : State) : Host.Outcome State Fault Refusal :=
  if completesHello p last s then .next (finish (deliver p last s)) else .next s

/-! ### Link conditions -/

/-- A receiver holds a partial frame (10 R168, Table 10-1). -/
def holdsPartial (p : Port) (s : State) : Bool := (s.port p).rx ≠ .hunt

/-- The discard of a partial frame by a link condition: a receiver in HUNT is left alone
(10 R171, R176). -/
def breakPartial (p : Port) (s : State) : State := if holdsPartial p s then dropPartial p s else s

/-- FRAMING_ERROR (10 R171): the byte is not delivered; URX must return to mark, and its time at space
is measured from its last change to space (10 R173, log 5). -/
def execFramingError (s : State) (counted : Bool := false) : Host.Outcome State Fault Refusal :=
  .next (finish { breakPartial .u s with urx := .atSpace (spaceSince counted s) s.ms })

/-- SSEL has risen: no window is open. The current frame and its position stay, and so does a filler
byte that is not sent: the byte is presented again in the next window (10 R175, R177). -/
def deselect (s : State) : State := { s with txS := { s.txS with selected := false } }

/-- DESELECT (10 R175, R176): the incomplete byte is dropped in both directions, the outgoing one to be
presented again, and a partial frame is discarded and counted. It takes place while a window is open
(log 2). -/
def execDeselect (s : State) : Host.Outcome State Fault Refusal :=
  if s.txS.selected then .next (finish (breakPartial .s (deselect (endS s)))) else .next s

/-- The link reset of port U (10 R173). -/
def linkReset (s : State) : State :=
  let s1 := s.modPort .u fun q => { q with rx := .hunt }
  { clearFifo .u (teardownIfOpen .u s1) with urx := .broken s.ms }

/-! ### Transmission -/

/-- TRANSMIT_ARBITER_CHOICE (10 R180): port U asks while its transmitter is IDLE; on port S it is the
start of a byte exchange, at which port S asks when it holds no current frame (10 R177, log 7). -/
def execTransmitArbiterChoice (p : Port) (s : State) : Host.Outcome State Fault Refusal :=
  match p with
  | .u => if s.txU.isNone then .next (finish s) else .next s
  | .s => .next (finish (startExchange s))

/-- The transmission on port U is over: the transmitter is IDLE, and a notice takes its sent-at
(10 R174, 09 R158). -/
def endU (f : Frame) (s : State) : State := noticeSent .u f { s with txU := none }

/-- Every byte of port S's current frame has counted as sent (10 R177). -/
def sentWhole (s : State) : Bool :=
  match s.txS.current with
  | some o => o.frame.size ≤ o.position
  | none => false

/-- TRANSMISSION_END (10 R174, R177; 09 R158). -/
def execTransmissionEnd (p : Port) (s : State) : Host.Outcome State Fault Refusal :=
  match p with
  | .u =>
    match s.txU with
    | some f => .next (finish (endU f s))
    | none => .next s
  | .s => if sentWhole s then .next (finish (endS s)) else .next s

/-! ### Timed happenings -/

/-- Time passes to a count, when it has not been reached (log 4). -/
def advanceTo (t : Nat) (s : State) : State := { s with ms := max s.ms t }

/-- A timed happening that is commanded: a transmission on port S that has ended is over first, and the
happening takes place at the count it falls due at, when nothing else falls due before (log 4, log 7). -/
def timed (due : State → Option Nat) (act : State → State) (s : State) :
    Host.Outcome State Fault Refusal :=
  match due (endS s) with
  | some t =>
    if quietUntil t (endS s) then .next (finish (act (advanceTo t (endS s)))) else .next s
  | none => .next s

/-- NOTICE_TIMER_EXPIRY (09 R158, R162, R163): it takes place at the count the running timer is set
for. -/
def execNoticeTimerExpiry (x : Port) (s : State) : Host.Outcome State Fault Refusal :=
  timed (fun s => (s.session x).timer) (expire x) s

/-- INTER_BYTE_GAP (10 R172): it takes place when more than 5 ms have passed inside a frame on
port U. -/
def execInterByteGap (s : State) : Host.Outcome State Fault Refusal := timed gapDue (dropPartial .u) s

/-- LINK_RESET (10 R173): it takes place when URX has been at space for 10 ms, once for each break
(log 5). -/
def execLinkReset (s : State) : Host.Outcome State Fault Refusal := timed breakDue linkReset s

/-- What has fallen due at the present count: an end of transmission on port S, a notice timer, the
gap limit of port U (log 3). -/
def dueNow (s : State) : Option Instr :=
  let at? (t : Option Nat) : Bool := match t with | some d => d ≤ s.ms | none => false
  if sentWhole s then some (.transmissionEnd .s)
  else if at? (s.session .u).timer then some (.noticeTimerExpiry .u)
  else if at? (s.session .s).timer then some (.noticeTimerExpiry .s)
  else if at? (gapDue s) then some .interByteGap
  else none

/-- The millisecond timer counts one (10 R181). -/
def tick (s : State) : State := { s with ms := s.ms + 1 }

end Sys2Proof.Machine
end

