-- ==== Sys2Proof/Machine/RingCommands.lean ====
section
/-! DEFINITION. The RING_ commands (01 R14 to R22) and MEM_QUERY (07 R128). Each block definition takes the
executing session and the argument bytes and answers status and data; `none` is a wrong length. -/

namespace Sys2Proof.Machine

/-- The ring is of the other session, or orphaned (01 R22). -/
def Ring.foreign (x : Port) (g : Ring) : Bool := g.orphaned || g.owner ≠ some x

/-- A channel source that is bound (01 R17, check 5). -/
def sourceBound (src : Source) (s : State) : Bool :=
  match src with
  | .channel c => (s.binding c).isSome
  | .host => false

/-- A channel source is bound to its new ring (01 R8, R17). -/
def bindSource (src : Source) (r : RingId) (s : State) : State :=
  match src with
  | .channel c => s.putBinding c (some r)
  | .host => s

/-- The record of a ring just created (01 R17). -/
def Ring.created (x : Port) (src : Source) (base capacity : Nat) : Ring :=
  { owner := some x, orphaned := false, source := src, base := base, capacity := capacity, head := 0,
    fill := 0, refs := 0 }

/-- RING_CREATE at the ring unit (01 R17). -/
def ringCreate (x : Port) (args : List Byte) (s : State) : Option Answer :=
  match args with
  | [id, src, c0, c1] =>
    let capacity := leNat [c0, c1]
    let no (st : Status) : Answer := { state := s, status := st, data := id :: zeros 2 }
    some <| match ringId? id with
    | none => no .badArg
    | some r =>
      if (s.ring r).isSome then no .noSlot
      else match source? src with
      | none => no .badArg
      | some source =>
        if capacity < Config.minCapacity ∨ Config.maxCapacity < capacity then no .badArg
        else if sourceBound source s then no .channelBound
        else match allocate capacity s.sampleFree with
        | none => no .noSpace
        | some (base, free) =>
          { state := bindSource source r ({ s with sampleFree := free }.putRing r
              (some (Ring.created x source base capacity)))
            status := .ok
            data := id :: leBytes 2 base }
  | _ => none

/-- RING_DELETE at the ring unit (01 R18). -/
def ringDelete (x : Port) (args : List Byte) (s : State) : Option Answer :=
  match args with
  | [id] =>
    let no (st : Status) : Answer := { state := s, status := st, data := [id] }
    some <| match ringId? id with
    | none => no .badArg
    | some r =>
      match s.ring r with
      | none => no .notFound
      | some g =>
        if g.foreign x then no .notOwner
        else if g.refs ≠ 0 then no .inUse
        else { state := freeRing r s, status := .ok, data := [id] }
  | _ => none

/-- RING_FLUSH at the ring unit (01 R19). -/
def ringFlush (x : Port) (args : List Byte) (s : State) : Option Answer :=
  match args with
  | [id] =>
    let no (st : Status) : Answer := { state := s, status := st, data := [id, 0] }
    some <| match ringId? id with
    | none => no .badArg
    | some r =>
      match s.ring r with
      | none => no .notFound
      | some g =>
        if g.foreign x then no .notOwner
        else
          let victims := pinners r (fun _ => true) s
          { state := (evictAll r victims s).putRing r (some { g with fill := 0 })
            status := .ok
            data := [id, BitVec.ofNat 8 victims.length] }
  | _ => none

/-- A host sample may be written: the head is below its limit, and the index it would overwrite, if
any, lies below the pin (01 R15). -/
def mayWrite (r : RingId) (g : Ring) (s : State) : Bool :=
  if Config.headLimit ≤ g.head then false
  else match pin r s with
  | some p => g.head < g.capacity || g.head - g.capacity < p
  | none => true

/-- The samples of a RING_WRITE, one at a time, oldest first, up to the first that may not be written;
with the count accepted so far (01 R15, R16). -/
def writeSamples (r : RingId) : List Word16 → Nat → State → Nat × State
  | [], n, s => (n, s)
  | v :: vs, n, s =>
    match s.ring r with
    | some g => if mayWrite r g s then writeSamples r vs (n + 1) (writeSample r g v s) else (n, s)
    | none => (n, s)

/-- RING_WRITE at the ring unit (01 R14, R15). -/
def ringWrite (x : Port) (args : List Byte) (s : State) : Option Answer :=
  match args with
  | id :: count :: rest =>
    match words16 rest with
    | none => none
    | some ws =>
      if ws.length ≠ count.toNat then none
      else
        let no (st : Status) : Answer := { state := s, status := st, data := id :: zeros 7 }
        some <| match ringId? id with
        | none => no .badArg
        | some r =>
          match s.ring r with
          | none => no .notFound
          | some g =>
            if g.foreign x then no .notOwner
            else if g.source ≠ .host then no .wrongState
            else if ws.length = 0 ∨ Config.maxItems < ws.length then no .badArg
            else
              let t := writeSamples r ws 0 s
              { state := t.2
                status := if t.1 = ws.length then .ok else .ringFull
                data := id :: BitVec.ofNat 8 t.1 :: leBytes 6 (headOf r t.2) }
  | _ => none

/-- RING_READ at the ring unit (01 R20). A refusal's data is zero (log 16). -/
def ringRead (args : List Byte) (s : State) : Option Answer :=
  match args with
  | [id, i0, i1, i2, i3, i4, i5, count] =>
    let first := leNat [i0, i1, i2, i3, i4, i5]
    let n := count.toNat
    let no (st : Status) : Answer := { state := s, status := st, data := zeros 5 }
    some <| match ringId? id with
    | none => no .badArg
    | some r =>
      match s.ring r with
      | none => no .notFound
      | some g =>
        if n = 0 ∨ Config.maxItems < n then no .badArg
        else if first < g.head - g.fill ∨ g.head < first + n then no .notPresent
        else
          { state := s
            status := .ok
            data := leBytes 4 first ++ [count]
              ++ bytes16 ((List.range n).map fun k => sampleAt s r (first + k)) }
  | _ => none

/-- RING_QUERY at the ring unit (01 R21). -/
def ringQuery (args : List Byte) (s : State) : Option Answer :=
  match args with
  | [id] =>
    some <| match ringId? id with
    | none => { state := s, status := .badArg, data := id :: zeros 24 }
    | some r =>
      match s.ring r with
      | none => { state := s, status := .ok, data := id :: zeros 24 }
      | some g => { state := s, status := .ok, data := id :: ringFigures g (pin r s) }
  | _ => none

/-- MEM_QUERY at the extent allocators (07 R128). -/
def memQuery (args : List Byte) (s : State) : Option Answer :=
  match args with
  | [] =>
    some { state := s, status := .ok, data := extentBytes s.sampleFree ++ extentBytes s.coefFree }
  | _ => none

/-- RING_CREATE (01 R17). -/
def execRingCreate (x : Port) (s : State) : Host.Outcome State Fault Refusal :=
  .next (runCommand x 0x20 (ringCreate x) s)

/-- RING_DELETE (01 R18). -/
def execRingDelete (x : Port) (s : State) : Host.Outcome State Fault Refusal :=
  .next (runCommand x 0x21 (ringDelete x) s)

/-- RING_FLUSH (01 R19). -/
def execRingFlush (x : Port) (s : State) : Host.Outcome State Fault Refusal :=
  .next (runCommand x 0x22 (ringFlush x) s)

/-- RING_WRITE (01 R14 to R16). -/
def execRingWrite (x : Port) (s : State) : Host.Outcome State Fault Refusal :=
  .next (runCommand x 0x23 (ringWrite x) s)

/-- RING_READ (01 R20). -/
def execRingRead (x : Port) (s : State) : Host.Outcome State Fault Refusal :=
  .next (runCommand x 0x24 ringRead s)

/-- RING_QUERY (01 R21). -/
def execRingQuery (x : Port) (s : State) : Host.Outcome State Fault Refusal :=
  .next (runCommand x 0x25 ringQuery s)

/-- MEM_QUERY (07 R128). -/
def execMemQuery (x : Port) (s : State) : Host.Outcome State Fault Refusal :=
  .next (runCommand x 0x38 memQuery s)

end Sys2Proof.Machine
end

