-- ==== Sys2Proof/Machine/SessionCommands.lean ====
section
/-! DEFINITION. BAD_KIND, BYE, STATUS and FETCH (11 R185, 08 R147, R148, 04 R79, R80). -/

namespace Sys2Proof.Machine

/-- The execution of a command whose code is unknown: BAD_KIND, cached and placed like any reply
(11 R185, 08 R145); it reaches no block. -/
def badKind (x : Port) (s : State) : State :=
  match nextCommand x s with
  | some (c, rest) =>
    if codeOf c.payload ∈ commandCodes then s
    else finish (reply x (replyFrame c.seq .badKind (codeOf c.payload) []) (takeCommand x rest s))
  | none => s

/-- BYE at the session controller, before its teardown: it carries no argument (08 R147). -/
def byeBlock (args : List Byte) (s : State) : Option Answer :=
  match args with
  | [] => some { state := s, status := .ok, data := [] }
  | _ => none

/-- The BYE at the head of the queue decodes: its payload is the command code alone (08 R147). -/
def byeDecodes (x : Port) (s : State) : Bool :=
  match nextCommand x s with
  | some (c, _) => c.payload.length = 1
  | none => false

/-- The execution of BYE: the reply, and then the teardown within the same happening; a BYE with a
longer payload is refused and closes nothing (08 R147). -/
def bye (x : Port) (s : State) : State :=
  match execute x 0x11 byeBlock s with
  | some s' => finish (if byeDecodes x s then teardown x s' else s')
  | none => s

/-- The figures of a STATUS reply (08 R148, 11 Table 11-5). -/
def statusFigures (x : Port) (s : State) : List Byte :=
  let z := s.session x
  [sessionCode x, flagByte (s.session (otherPort x)).isOpen, z.expected,
    BitVec.ofNat 8 z.queue.length, BitVec.ofNat 8 z.cache.length, BitVec.ofNat 8 z.results.length,
    BitVec.ofNat 8 z.heldOrder.length, BitVec.ofNat 8 z.pendingList.length,
    BitVec.ofNat 8 z.inFlight.length, z.noticeSeq, BitVec.ofNat 8 z.retry]
    ++ leBytes 2 z.timeout ++ [flagByte z.resultsNotify]
    ++ (match z.load with
        | some l => [0x01, BitVec.ofNat 8 l.set.val] ++ leBytes 2 l.next
        | none => zeros 4)
    ++ [BitVec.ofNat 8 (s.port x).fifo.length] ++ leBytes 2 (s.port x).lineErrors

/-- STATUS at the session controller (08 R148). -/
def statusBlock (x : Port) (args : List Byte) (s : State) : Option Answer :=
  match args with
  | [] => some { state := s, status := .ok, data := statusFigures x s }
  | _ => none

/-- The removal of the `k` oldest records of a session's queue, the held move and the RESULTS check
(04 R79, R78, R84). A FETCH that removes nothing moves nothing. -/
def removeOldest (x : Port) (k : Nat) (s : State) : State :=
  let before := (s.session x).results
  let s1 := s.modSession x fun z => { z with results := before.drop k }
  let s2 := if 0 < min k before.length then heldMove x s1 else s1
  resultsCheck x before s2

/-- FETCH at the result unit (04 R79, R80). -/
def fetchBlock (x : Port) (args : List Byte) (s : State) : Option Answer :=
  match args with
  | [count] =>
    let n := count.toNat
    some <|
      if n = 0 ∨ Config.maxFetch < n then { state := s, status := .badArg, data := zeros 3 }
      else
        let taken := (s.session x).results.take n
        let s' := removeOldest x n s
        { state := s'
          status := .ok
          data := BitVec.ofNat 8 taken.length :: taken.flatMap Record.bytes
            ++ [BitVec.ofNat 8 (s'.session x).results.length,
                BitVec.ofNat 8 (s'.session x).heldOrder.length] }
  | _ => none

/-- BAD_KIND (11 R185). -/
def execBadKind (x : Port) (s : State) : Host.Outcome State Fault Refusal := .next (badKind x s)

/-- BYE (08 R147). -/
def execBye (x : Port) (s : State) : Host.Outcome State Fault Refusal := .next (bye x s)

/-- STATUS (08 R148). -/
def execStatus (x : Port) (s : State) : Host.Outcome State Fault Refusal :=
  .next (runCommand x 0x12 (statusBlock x) s)

/-- FETCH (04 R79, R80). -/
def execFetch (x : Port) (s : State) : Host.Outcome State Fault Refusal :=
  .next (runCommand x 0x50 (fetchBlock x) s)

end Sys2Proof.Machine
end

