-- ==== Sys2Proof/Machine/SetCommands.lean ====
section
/-! DEFINITION. The SET_ commands (06 R109 to R117). -/

namespace Sys2Proof.Machine

/-- The set is of the other session, or orphaned (06 R115, R117). -/
def CoefSet.foreign (x : Port) (v : CoefSet) : Bool := v.isOrphaned || v.owner ≠ some x

/-- The load context of a session replaced. -/
def putLoad (x : Port) (l : Option Load) (s : State) : State :=
  s.modSession x fun z => { z with load := l }

/-- SET_BEGIN at the coefficient store (06 R109). -/
def setBegin (x : Port) (args : List Byte) (s : State) : Option Answer :=
  match args with
  | [id, l0, l1] =>
    let length := leNat [l0, l1]
    let no (st : Status) : Answer := { state := s, status := st, data := id :: zeros 2 }
    some <| match setId? id with
    | none => no .badArg
    | some c =>
      if (s.session x).load.isSome then no .loadOpen
      else if (s.coef c).isSome then no .noSlot
      else if length = 0 ∨ Config.maxLength < length then no .badArg
      else match allocate length s.coefFree with
      | none => no .noSpace
      | some (base, free) =>
        { state := putLoad x (some { set := c, next := 0 }) ({ s with coefFree := free }.putCoef c
            (some { owner := some x, base := base, length := length, refs := 0, phase := .loading }))
          status := .ok
          data := id :: leBytes 2 base }
  | _ => none

/-- The data of a SET_DATA reply: the id of the context's set and the next offset (06 R110, R111). -/
def loadData (l : Load) : List Byte := BitVec.ofNat 8 l.set.val :: leBytes 2 l.next

/-- SET_DATA at the coefficient store (06 R110, R111, Table 6-3). -/
def setData (x : Port) (args : List Byte) (s : State) : Option Answer :=
  match args with
  | o0 :: o1 :: count :: rest =>
    match words16 rest with
    | none => none
    | some ws =>
      if ws.length ≠ count.toNat then none
      else
        let o := leNat [o0, o1]
        let n := ws.length
        some <| match (s.session x).load with
        | none => { state := s, status := .noLoad, data := zeros 3 }
        | some l =>
          match s.coef l.set with
          | none => { state := s, status := .noLoad, data := zeros 3 }
          | some v =>
            let stay (st : Status) : Answer := { state := s, status := st, data := loadData l }
            if n = 0 ∨ Config.maxItems < n then stay .badArg
            else if v.length < o + n then stay .badArg
            else if o = l.next then
              let l' : Load := { l with next := l.next + n }
              { state := putLoad x (some l') { s with coefMem := s.coefMem.writeAll (v.base + o) ws }
                status := .ok
                data := loadData l' }
            else if o + n ≤ l.next then stay .duplicate
            else stay .outOfSequence
  | _ => none

/-- The CRC-16 over the first `n` coefficients of a set as stored, each as two bytes, less significant
byte first (06 R113). -/
def setCrc (c : SetId) (n : Nat) (s : State) : Word16 :=
  crc16 (bytes16 ((List.range n).map fun k => coefAt s c k))

/-- The data of a SET_END reply (11 Table 11-5): set id, next offset, length, CRC. -/
def setEndData (c : SetId) (next length : Nat) (crc : Word16) : List Byte :=
  BitVec.ofNat 8 c.val :: leBytes 2 next ++ leBytes 2 length ++ leBytes 2 crc.toNat

/-- SET_END at the coefficient store (06 R112, R113). -/
def setEnd (x : Port) (args : List Byte) (s : State) : Option Answer :=
  match args with
  | [k0, k1] =>
    some <| match (s.session x).load with
    | none => { state := s, status := .noLoad, data := zeros 7 }
    | some l =>
      match s.coef l.set with
      | none => { state := s, status := .noLoad, data := zeros 7 }
      | some v =>
        if l.next < v.length then
          { state := s, status := .incomplete, data := setEndData l.set l.next 0 0 }
        else
          let crc := setCrc l.set v.length s
          if crc.toNat = leNat [k0, k1] then
            { state := putLoad x none (s.putCoef l.set
                (some { v with refs := 0, phase := .ready false crc }))
              status := .ok
              data := setEndData l.set 0 v.length crc }
          else
            { state := putLoad x (some { l with next := 0 }) s
              status := .checkFailed
              data := setEndData l.set 0 0 crc }
  | _ => none

/-- SET_ABORT at the coefficient store (06 R114). -/
def setAbort (x : Port) (args : List Byte) (s : State) : Option Answer :=
  match args with
  | [] =>
    some <| match (s.session x).load with
    | none => { state := s, status := .noLoad, data := zeros 1 }
    | some l =>
      { state := putLoad x none (freeSet l.set s), status := .ok, data := [BitVec.ofNat 8 l.set.val] }
  | _ => none

/-- SET_DELETE at the coefficient store (06 R115). -/
def setDelete (x : Port) (args : List Byte) (s : State) : Option Answer :=
  match args with
  | [id] =>
    let no (st : Status) : Answer := { state := s, status := st, data := [id] }
    some <| match setId? id with
    | none => no .badArg
    | some c =>
      match s.coef c with
      | none => no .notFound
      | some v =>
        if v.foreign x then no .notOwner
        else if v.phase = .loading then no .wrongState
        else if v.refs ≠ 0 then no .inUse
        else { state := freeSet c s, status := .ok, data := [id] }
  | _ => none

/-- The next offset of the load context that the owner of a LOADING set has open for it (06 R116). -/
def loadedOf (c : SetId) (v : CoefSet) (s : State) : Nat :=
  match v.owner with
  | some x =>
    match (s.session x).load with
    | some l => if l.set = c then l.next else 0
    | none => 0
  | none => 0

/-- SET_QUERY at the coefficient store (06 R116). -/
def setQuery (args : List Byte) (s : State) : Option Answer :=
  match args with
  | [id] =>
    some <| match setId? id with
    | none => { state := s, status := .badArg, data := id :: zeros 12 }
    | some c =>
      match s.coef c with
      | none => { state := s, status := .ok, data := id :: zeros 12 }
      | some v => { state := s, status := .ok, data := id :: setFigures v (loadedOf c v s) }
  | _ => none

/-- SET_BEGIN (06 R109). -/
def execSetBegin (x : Port) (s : State) : Host.Outcome State Fault Refusal :=
  .next (runCommand x 0x30 (setBegin x) s)

/-- SET_DATA (06 R110, R111). -/
def execSetData (x : Port) (s : State) : Host.Outcome State Fault Refusal :=
  .next (runCommand x 0x31 (setData x) s)

/-- SET_END (06 R112, R113). -/
def execSetEnd (x : Port) (s : State) : Host.Outcome State Fault Refusal :=
  .next (runCommand x 0x32 (setEnd x) s)

/-- SET_ABORT (06 R114). -/
def execSetAbort (x : Port) (s : State) : Host.Outcome State Fault Refusal :=
  .next (runCommand x 0x33 (setAbort x) s)

/-- SET_DELETE (06 R115). -/
def execSetDelete (x : Port) (s : State) : Host.Outcome State Fault Refusal :=
  .next (runCommand x 0x34 (setDelete x) s)

/-- SET_QUERY (06 R116). -/
def execSetQuery (x : Port) (s : State) : Host.Outcome State Fault Refusal :=
  .next (runCommand x 0x35 setQuery s)

end Sys2Proof.Machine
end

