-- ==== Sys2Proof/Machine/UnitHappenings.lean ====
section
/-! DEFINITION. The happenings inside the part and at the sample port: RSTN, SAMPLE_ARRIVAL, SEGMENT_END,
RUN_END (10 R181, 01 R12, 03 R61, R65). -/

namespace Sys2Proof.Machine

/-- Device reset: every block in its reset state, BAUD sampled and URX and SSEL looked at on release;
the contents of the memories are not defined after it, so free values of a new epoch stand there
(10 R181, log 8). A partly received sample word is discarded (01 R9). The queue of waiting commands is
no part of the device. -/
def resetDevice (baud : Level) (lines : Lines) (s : State) : State :=
  { State.afterReset baud lines (s.epoch + 1) with pending := s.pending }

/-! ### The sample port (01 R9) -/

/-- A sample word from its 18 bits, first bit first: the first is the most significant (01 R9,
log 25). -/
def wordOf (bits : List Bool) : BitVec 18 := bits.foldl BitVec.shiftConcat 0

/-- The channel of a sample word: its first two bits (01 R9). -/
def wordChannel (w : BitVec 18) : ChannelId := ⟨w.toNat / 65536, by omega⟩

/-- The value of a sample word: its last 16 bits (01 R9). -/
def wordValue (w : BitVec 18) : Word16 := w.setWidth 16

/-- Step 1 of a sample arrival: the jobs whose window start is at or below the index about to be
overwritten are evicted (01 R12). -/
def evictOverwritten (r : RingId) (g : Ring) (s : State) : State :=
  if g.capacity ≤ g.head then evictAll r (pinners r (fun w => w ≤ g.head - g.capacity) s) s else s

/-- A sample arriving on a channel (01 R10, R12). -/
def sampleArrival (c : ChannelId) (v : Word16) (s : State) : State :=
  match s.binding c with
  | some r =>
    match s.ring r with
    | some g =>
      if g.head < Config.headLimit then finish (writeSample r g v (evictOverwritten r g s)) else s
    | none => s
  | none => s

/-- One SP_CLK period (01 R9): a mark discards a word in progress and begins a new one, a bit without a
word in progress is ignored, and a word's eighteenth bit makes it arrive. -/
def clockSample (s : State) (t : SpPeriod) : State :=
  if t.mark then { s with spWord := [t.bit] }
  else if s.spWord.isEmpty then s
  else
    let bits := s.spWord ++ [t.bit]
    if bits.length < Config.sampleWordSize then { s with spWord := bits }
    else sampleArrival (wordChannel (wordOf bits)) (wordValue (wordOf bits)) { s with spWord := [] }

/-- RSTN (10 R181). -/
def execRstn (baud : Level) (lines : Lines) (s : State) : Host.Outcome State Fault Refusal :=
  .next (resetDevice baud lines s)

/-- SAMPLE_ARRIVAL (01 R9, R12): the sample port is clocked through the periods; each word they complete
arrives in a happening of its own. -/
def execSampleArrival (periods : List SpPeriod) (s : State) : Host.Outcome State Fault Refusal :=
  .next (periods.foldl clockSample s)

/-- The run in flight with its job's record (03 R53). -/
def inFlightRun (s : State) : Option (Run × Job) :=
  match s.psu with
  | some run => (s.job run.job).map fun b => (run, b)
  | none => none

/-- SEGMENT_END (03 R61, R62): it takes place while a run has a non-final segment end before it. -/
def execSegmentEnd (s : State) : Host.Outcome State Fault Refusal :=
  match inFlightRun s with
  | some (run, b) =>
    if hasSegmentEnd b run then .next (finish (segmentEnd b run s)) else .next s
  | none => .next s

/-- RUN_END (03 R63 to R65): it takes place once no non-final segment end is left before it. -/
def execRunEnd (s : State) : Host.Outcome State Fault Refusal :=
  match inFlightRun s with
  | some (run, b) =>
    if hasSegmentEnd b run then .next s else .next (finish (runEnd b run s))
  | none => .next s

end Sys2Proof.Machine
end

