-- ==== Sys2Proof/Machine/Dispatch.lean ====
section
/-! DEFINITION. Each command calls its meaning. -/

namespace Sys2Proof.Machine

/-- The effect of a command on everything but the queue of waiting commands. -/
def exec (i : Instr) (s : State) : Host.Outcome State Fault Refusal :=
  match i with
  | .rstn baud lines => Sys2Proof.Machine.execRstn baud lines s
  | .sampleArrival periods => Sys2Proof.Machine.execSampleArrival periods s
  | .segmentEnd => Sys2Proof.Machine.execSegmentEnd s
  | .runEnd => Sys2Proof.Machine.execRunEnd s
  | .frameResolution p last => Sys2Proof.Machine.execFrameResolution p last s
  | .frameLengthError p len => Sys2Proof.Machine.execFrameLengthError p len s
  | .hello p last => Sys2Proof.Machine.execHello p last s
  | .badKind x => Sys2Proof.Machine.execBadKind x s
  | .bye x => Sys2Proof.Machine.execBye x s
  | .status x => Sys2Proof.Machine.execStatus x s
  | .ringCreate x => Sys2Proof.Machine.execRingCreate x s
  | .ringDelete x => Sys2Proof.Machine.execRingDelete x s
  | .ringFlush x => Sys2Proof.Machine.execRingFlush x s
  | .ringWrite x => Sys2Proof.Machine.execRingWrite x s
  | .ringRead x => Sys2Proof.Machine.execRingRead x s
  | .ringQuery x => Sys2Proof.Machine.execRingQuery x s
  | .setBegin x => Sys2Proof.Machine.execSetBegin x s
  | .setData x => Sys2Proof.Machine.execSetData x s
  | .setEnd x => Sys2Proof.Machine.execSetEnd x s
  | .setAbort x => Sys2Proof.Machine.execSetAbort x s
  | .setDelete x => Sys2Proof.Machine.execSetDelete x s
  | .setQuery x => Sys2Proof.Machine.execSetQuery x s
  | .memQuery x => Sys2Proof.Machine.execMemQuery x s
  | .jobDefine x => Sys2Proof.Machine.execJobDefine x s
  | .jobArm x => Sys2Proof.Machine.execJobArm x s
  | .jobStart x => Sys2Proof.Machine.execJobStart x s
  | .jobCancel x => Sys2Proof.Machine.execJobCancel x s
  | .jobDelete x => Sys2Proof.Machine.execJobDelete x s
  | .jobQuery x => Sys2Proof.Machine.execJobQuery x s
  | .jobWatch x => Sys2Proof.Machine.execJobWatch x s
  | .fetch x => Sys2Proof.Machine.execFetch x s
  | .transmitArbiterChoice p => Sys2Proof.Machine.execTransmitArbiterChoice p s
  | .transmissionEnd p => Sys2Proof.Machine.execTransmissionEnd p s
  | .noticeTimerExpiry x => Sys2Proof.Machine.execNoticeTimerExpiry x s
  | .framingError counted => Sys2Proof.Machine.execFramingError s counted
  | .interByteGap => Sys2Proof.Machine.execInterByteGap s
  | .linkReset => Sys2Proof.Machine.execLinkReset s
  | .deselect => Sys2Proof.Machine.execDeselect s
  | .byteDelivered p b => Sys2Proof.Machine.execByteDelivered p b s

end Sys2Proof.Machine
end

