-- ==== Sys2Proof/Machine/Step.lean ====
section
/-! DEFINITION. One step: the command at the front of the queue, or, on an empty queue, what has fallen due or
a tick of the millisecond timer (log 3). -/

namespace Sys2Proof.Machine

/-- The step on an empty queue (DESIGN CHOICE, log 3): a happening that has fallen due takes place, and
with none the millisecond count advances by one. -/
def idle (s : State) : Host.Outcome State Fault Refusal :=
  match dueNow s with
  | some c => exec c s
  | none => .next (tick s)

/-- One step of the part. -/
def step (s : State) : Host.Outcome State Fault Refusal :=
  match s.pending with
  | c :: rest => exec c { s with pending := rest }
  | [] => idle s

/-- The state with the command that a table word spells put at the front of its queue; a word spells
none (log 24). -/
def State.withFetchWord (s : State) (nbits w : Nat) : State :=
  match decodeTableWord nbits w with
  | some c => { s with pending := c :: s.pending }
  | none => s

end Sys2Proof.Machine
end

