-- ==== Sys2Proof/Safety.lean ====
section
/-! DEFINITION. What a safe run keeps: the laws of the spec that hold between happenings, as predicates on
one state, in the terms the claims use. -/

namespace Sys2Proof.Machine

/-! ### The run scheduler (03) -/

/-- READY or PARKED: the job stands in the ready queue (03 R54). -/
def JobState.waits : JobState → Bool
  | .ready | .parked _ => true
  | .defined | .armed | .running | .held _ => false

/-- Between happenings the PSU is IDLE only when the ready queue is empty (03 R56). -/
def SchedulerSettled (s : State) : Prop := s.psu = none → ∀ c, s.cls c = []

/-- The laws of the ready queue and the PSU (03 R53 to R56). -/
structure SchedulerLaw (s : State) : Prop where
  /-- Each job stands in a class at most once (R54). -/
  nodup : ∀ c, (s.cls c).Nodup
  /-- The queue holds exactly the READY and PARKED jobs, each in the class of its priority (R54). -/
  queued : ∀ c j, j ∈ s.cls c ↔
    ∃ b, s.job j = some b ∧ b.state.waits = true ∧ b.par.priority = c
  /-- The PSU is BUSY exactly while one job is RUNNING, the job named by the run (R53). -/
  running : ∀ j, (∃ b, s.job j = some b ∧ b.state = .running) ↔ ∃ run, s.psu = some run ∧ run.job = j
  /-- A PARKED job stands at the head of its class (R55). -/
  parkedFirst : ∀ j b p, s.job j = some b → b.state = .parked p →
    (s.cls b.par.priority).head? = some j
  /-- While a job of a class runs, none of that class is PARKED (R55). -/
  runningAlone : ∀ j b k d p, s.job j = some b → b.state = .running → s.job k = some d →
    d.state = .parked p → d.par.priority ≠ b.par.priority
  /-- The PSU is IDLE only when the queue is empty (R56). -/
  settled : SchedulerSettled s

/-- The armed flag and the countdown of a job go with its state (02 R26, Table 2-2, R32): DEFINED is
not armed, ARMED is, an armed job has a stride and a countdown above 0, any other a countdown of 0. -/
def ArmedLaw (s : State) : Prop :=
  ∀ j b, s.job j = some b →
    (b.state = .defined → b.armed = false) ∧ (b.state = .armed → b.armed = true) ∧
    (b.armed = true → 0 < b.countdown ∧ 0 < b.par.stride) ∧ (b.armed = false → b.countdown = 0)

/-! ### Rings, sets and their references (01, 06) -/

/-- How many jobs name a ring (01 R6). -/
def ringJobs (r : RingId) (s : State) : Nat :=
  (allJobs.filter fun j => match s.job j with | some b => b.ring = r | none => false).length

/-- How many jobs name a set (06 R106). -/
def setJobs (c : SetId) (s : State) : Nat :=
  (allJobs.filter fun j => match s.job j with | some b => b.set = c | none => false).length

/-- The laws of reference counts and load contexts (01 R6, R7; 06 R106 to R108). -/
structure ReferenceLaw (s : State) : Prop where
  /-- A ring's reference count is the number of jobs that name it (01 R6). -/
  ringRefs : ∀ r g, s.ring r = some g → g.refs = ringJobs r s
  /-- A ring that a job names is ACTIVE: it is never freed while its count is above 0 (01 R6). -/
  ringNamed : ∀ j b, s.job j = some b → ∃ g, s.ring b.ring = some g
  /-- A set's reference count is the number of jobs that name it (06 R106). -/
  setRefs : ∀ c v, s.coef c = some v → v.refs = setJobs c s
  /-- A set that a job names is READY (06 R105, R106). -/
  setNamed : ∀ j b, s.job j = some b → ∃ v, s.coef b.set = some v ∧ v.phase ≠ .loading
  /-- An open load context holds a LOADING set of its session, and no more than its length is taken
  (06 R108). -/
  loads : ∀ x l, (s.session x).load = some l →
    ∃ v, s.coef l.set = some v ∧ v.phase = .loading ∧ v.owner = some x ∧ l.next ≤ v.length
  /-- Each LOADING set belongs to the one open context of its owner (06 R108). -/
  loading : ∀ c v, s.coef c = some v → v.phase = .loading →
    ∃ x l, v.owner = some x ∧ (s.session x).load = some l ∧ l.set = c
  /-- A ring has no owner exactly when it is orphaned, and then jobs still name it (01 R7). -/
  ringOrphan : ∀ r g, s.ring r = some g →
    (g.orphaned = true ↔ g.owner = none) ∧ (g.orphaned = true → 0 < g.refs)
  /-- A set has no owner exactly when it is orphaned, and then jobs still name it (06 R107). -/
  setOrphan : ∀ c v, s.coef c = some v →
    (v.isOrphaned = true ↔ v.owner = none) ∧ (v.isOrphaned = true → 0 < v.refs)

/-- A channel is bound to a ring exactly when that ring is ACTIVE with the channel as its source
(01 R8). -/
def BindingLaw (s : State) : Prop :=
  ∀ c r, s.binding c = some r ↔ ∃ g, s.ring r = some g ∧ g.source = .channel c

/-- Head and fill of every ring (01 R2), its capacity (01 R17), and the window of every job that pins
its ring: it consists of present samples (01 R5). -/
structure WindowLaw (s : State) : Prop where
  ringFill : ∀ r g, s.ring r = some g →
    g.fill ≤ g.head ∧ g.fill ≤ g.capacity ∧ g.head ≤ Config.headLimit ∧
    Config.minCapacity ≤ g.capacity ∧ g.capacity ≤ Config.maxCapacity
  present : ∀ j b g, s.job j = some b → b.state.pins = true → s.ring b.ring = some g →
    g.head - g.fill ≤ b.windowStart ∧ b.windowStart + b.par.length ≤ g.head

/-- A CLOSED session owns nothing and its lists are empty (08 R131). -/
def ClosedLaw (s : State) : Prop :=
  ∀ x, (s.session x).isOpen = false →
    (∀ j b, s.job j = some b → b.owner ≠ x) ∧
    (∀ r g, s.ring r = some g → g.owner ≠ some x) ∧
    (∀ c v, s.coef c = some v → v.owner ≠ some x) ∧
    (s.session x).queue = [] ∧ (s.session x).cache = [] ∧ (s.session x).results = [] ∧
    (s.session x).heldOrder = [] ∧ (s.session x).load = none ∧ (s.session x).pendingList = [] ∧
    (s.session x).inFlight = []

/-! ### Extents (07) -/

/-- How many entries of a free-extent list cover an address. -/
def freeCover (l : List Extent) (a : Nat) : Nat :=
  (l.filter fun e => e.base ≤ a && a < e.base + e.size).length

/-- How many ACTIVE rings hold an address of sample memory. -/
def ringCover (s : State) (a : Nat) : Nat :=
  (allRings.filter fun r => match s.ring r with
    | some g => g.base ≤ a && a < g.base + g.capacity
    | none => false).length

/-- How many LOADING and READY sets hold an address of coefficient memory. -/
def setCover (s : State) (a : Nat) : Nat :=
  (allSets.filter fun c => match s.coef c with
    | some v => v.base ≤ a && a < v.base + v.length
    | none => false).length

/-- A free-extent list is in rising order of base, no entry is empty, and no two are adjacent
(07 R122). -/
def FreeListOrdered : List Extent → Prop
  | [] => True
  | [e] => 0 < e.size
  | e :: f :: rest => 0 < e.size ∧ e.base + e.size < f.base ∧ FreeListOrdered (f :: rest)

/-- The extents in use and the free entries of each memory are pairwise disjoint and together cover
it, and nothing lies outside it (07 R122). -/
structure ExtentLaw (s : State) : Prop where
  sampleOrdered : FreeListOrdered s.sampleFree
  sampleOnce : ∀ a, freeCover s.sampleFree a + ringCover s a =
    if a < Config.sampleMemorySize then 1 else 0
  coefOrdered : FreeListOrdered s.coefFree
  coefOnce : ∀ a, freeCover s.coefFree a + setCover s a = if a < Config.coefMemorySize then 1 else 0
  ringSize : ∀ r g, s.ring r = some g → 0 < g.capacity
  setSize : ∀ c v, s.coef c = some v → 0 < v.length

/-! ### Results (04) -/

/-- The laws of a session's result queue and held order list (04 R74, R75, R77). -/
structure HeldLaw (s : State) : Prop where
  /-- The list holds each HELD job of the session once (R77). -/
  nodup : ∀ x, (s.session x).heldOrder.Nodup
  listed : ∀ x j, j ∈ (s.session x).heldOrder ↔
    ∃ b r, s.job j = some b ∧ b.owner = x ∧ b.state = .held r
  /-- A held result is the result of the job that holds it (R64, R77). -/
  named : ∀ j b r, s.job j = some b → b.state = .held r → r.job = j
  /-- A job is HELD only while its session's queue holds 32 records (R74). -/
  full : ∀ x, (s.session x).heldOrder ≠ [] → (s.session x).results.length = Config.resultQueueSize
  /-- Every queued record belongs to a job of the session (R75). -/
  owned : ∀ x r, r ∈ (s.session x).results → ∃ b, s.job r.job = some b ∧ b.owner = x

/-! ### Capacities (00 Table 0-2) -/

/-- No list outgrows its capacity and no count its limit (01 R9, 04 R74, 08 R143, R146, 09 R154, R162,
10 R170, R179). -/
structure Bounded (s : State) : Prop where
  word : s.spWord.length < Config.sampleWordSize
  fifo : ∀ p, (s.port p).fifo.length ≤ Config.replyFifoSize
  lineErrors : ∀ p, (s.port p).lineErrors ≤ Config.countLimit
  queue : ∀ x, (s.session x).queue.length ≤ Config.commandQueueSize
  cache : ∀ x, (s.session x).cache.length ≤ Config.replyCacheSize
  results : ∀ x, (s.session x).results.length ≤ Config.resultQueueSize
  inFlight : ∀ x, (s.session x).inFlight.length ≤ Config.inFlightSize
  retry : ∀ x, (s.session x).retry ≤ Config.maxRetries

/-! ### Sequence numbers (08 R142, 09 R157) -/

/-- The numbers are consecutive modulo 256, and the last is just below `next`. -/
def ChainTo (next : Byte) (l : List Byte) : Prop :=
  ∀ i, i < l.length → l[i]? = some (next - BitVec.ofNat 8 (l.length - i))

/-- The numbers in the reply cache and then in the command queue run up to the expected sequence
(08 R142); a CLOSED session holds none. -/
def SequenceLaw (s : State) : Prop :=
  ∀ x, ChainTo (s.session x).expected
      ((s.session x).cache.map Frame.seq ++ (s.session x).queue.map Command.seq) ∧
    ((s.session x).isOpen = false → (s.session x).cache = [] ∧ (s.session x).queue = [])

/-- The notices in flight carry consecutive sequence numbers up to the notice sequence (09 R157); a
CLOSED session has none in flight. -/
def NoticeSequenceLaw (s : State) : Prop :=
  ∀ x, ChainTo (s.session x).noticeSeq ((s.session x).inFlight.map fun n => n.frame.seq) ∧
    ((s.session x).isOpen = false → (s.session x).inFlight = [])

/-! ### Notices (09, 05) -/

/-- The notice timer follows the oldest notice in flight (09 R158), and a marked notice has no sent-at
(R162); a CLOSED session has no notice in flight. -/
def TimerLaw (s : State) : Prop :=
  ∀ x, (s.session x).timer = (s.session x).timerLaw ∧
    (∀ n ∈ (s.session x).inFlight, n.marked = true → n.sentAt = none) ∧
    ((s.session x).isOpen = false → (s.session x).inFlight = [])

/-- Two entries are of the same kind for the same job (09 R154). -/
def Entry.sameKind : Entry → Entry → Bool
  | .alert j _ _ _ _, .alert k _ _ _ _ => j = k
  | .fault j _ _, .fault k _ _ => j = k
  | .overrun j _, .overrun k _ => j = k
  | .results, .results => true
  | _, _ => false

/-- No pending list holds two entries of the same kind for the same job (09 R154). -/
def EntriesDistinct (s : State) : Prop :=
  ∀ x, (s.session x).pendingList.Pairwise fun e f => e.sameKind f = false

/-- A pending ALERT entry names a job of its session (05 R99, 02 R45). -/
def AlertsOwned (s : State) : Prop :=
  ∀ x j c v run n, Entry.alert j c v run n ∈ (s.session x).pendingList →
    ∃ b, s.job j = some b ∧ b.owner = x

/-- The two relations of 05 R98 between a watch and the owner's pending list: with no ALERT entry for
the job the current class is the reported one; with one, its class is the current one and differs from
the reported one. -/
def WatchLaw (s : State) : Prop :=
  ∀ j b w, s.job j = some b → b.watch = some w →
    ((s.session b.owner).pendingList.any (Entry.isAlertOf j) = false → w.current = w.reported) ∧
    (∀ c v run n, Entry.alert j c v run n ∈ (s.session b.owner).pendingList →
      c = w.current ∧ c ≠ w.reported)

/-! ### Ports and memories -/

/-- While the port U transmitter is IDLE, nothing waits for it (10 R180). -/
def PortUSettled (s : State) : Prop :=
  s.txU = none → (s.port .u).fifo = [] ∧ offer .u s = .nothing

/-- Both memories keep their canonical form (log 8). -/
def MemoriesCanonical (s : State) : Prop := s.sampleMem.wf = true ∧ s.coefMem.wf = true

/-- Nothing waits that a happening's end would start: the scheduler and port U are settled. -/
def Quiet (s : State) : Prop := SchedulerSettled s ∧ PortUSettled s

/-! ### What a command's execution and reception leave, in the terms of the claims -/

/-- Session `x` is served next, and the command at the head of its queue has this sequence number and
payload, with `rest` behind it (08 R143, R144). -/
def NextIs (x : Port) (q : Byte) (payload : List Byte) (rest : List Command) (s : State) : Prop :=
  served s = some x ∧ (s.session x).queue = { seq := q, payload := payload } :: rest

/-- The byte that names a ring, set, job, channel or priority (11 Table 11-3). -/
def idByte {n : Nat} (i : Fin n) : Byte := BitVec.ofNat 8 i.val

/-- The 18 SP_CLK periods of a whole sample word: the channel and then the value, each most significant
bit first, with the mark at the first bit (01 R9). -/
def wordPeriods (c : ChannelId) (v : Word16) : List SpPeriod :=
  (List.range 18).map fun i =>
    { mark := i = 0, bit := if i < 2 then c.val.testBit (1 - i) else v.getLsbD (17 - i) }

/-- The record of a session whose command left the queue with `rest` behind it and whose reply is
cached, and the marker that names the session (08 R144 to R146). -/
def executed (x : Port) (f : Frame) (rest : List Command) (s : State) : State :=
  { s.modSession x fun z => { z with queue := rest, cache := cacheReply f z.cache } with
    lastServed := x }

/-- The state after the execution of a command whose owning block left `s`: the reply is cached and
placed, and the happening ends (08 R145). -/
def answered (x : Port) (q : Byte) (st : Status) (code : Byte) (data : List Byte)
    (rest : List Command) (s : State) : State :=
  finish (place x (replyFrame q st code data) (executed x (replyFrame q st code data) rest s))

/-- A frame handed to a port that has nothing else to send: port U begins it at once when its
transmitter is IDLE, else it joins the reply FIFO (10 R179, R180). -/
def handOver (p : Port) (f : Frame) (s : State) : State :=
  match p, s.txU with
  | .u, none => { s with txU := some f }
  | _, _ => place p f s

/-- The state in which a complete frame is resolved: its last byte is taken and the receiver hunts
again (10 R168). -/
def received (p : Port) (s : State) : State :=
  (noteByteU p (exchange p s)).modPort p fun y => { y with rx := .hunt }

/-- A port's line error count one higher, up to its limit (10 R170). -/
def countLineError (p : Port) (s : State) : State :=
  s.modPort p fun y => { y with lineErrors := bump Config.countLimit y.lineErrors }

/-- A countdown step of ring `r` brings this job's countdown to 0 with fill enough for its window
(02 R34). -/
def Job.dueAt (r : RingId) (fill : Nat) (b : Job) : Bool :=
  b.armed && b.ring = r && b.countdown ≤ 1 && b.par.length ≤ fill

/-- The job fires at the countdown step (02 R36). -/
def firesAt (r : RingId) (fill : Nat) (s : State) (j : JobId) : Bool :=
  match s.job j with
  | some b => b.dueAt r fill && b.state = .armed
  | none => false

/-- The job, of session `y`, misses a trigger at the countdown step (02 R37). -/
def missesAt (r : RingId) (fill : Nat) (y : Port) (s : State) (j : JobId) : Bool :=
  match s.job j with
  | some b => b.dueAt r fill && b.state ≠ .armed && b.state ≠ .defined && b.owner = y
  | none => false

/-- The job stands in class `c` as READY or PARKED (03 R54). -/
def waitsIn (c : ClassId) (s : State) (j : JobId) : Bool :=
  match s.job j with
  | some b => b.state.waits && b.par.priority = c
  | none => false

/-- The job is one of session `y`. -/
def ownedBy (y : Port) (s : State) (j : JobId) : Bool :=
  match s.job j with
  | some b => b.owner = y
  | none => false

/-- How many jobs of session `y` name a ring (01 R23). -/
def ringJobsOf (y : Port) (r : RingId) (s : State) : Nat :=
  (allJobs.filter fun j => match s.job j with
    | some b => b.owner = y && b.ring = r
    | none => false).length

/-- How many jobs of session `y` name a set (06 R118). -/
def setJobsOf (y : Port) (c : SetId) (s : State) : Nat :=
  (allJobs.filter fun j => match s.job j with
    | some b => b.owner = y && b.set = c
    | none => false).length

end Sys2Proof.Machine
end

