-- ==== Sys2Proof/Certificates/Slice0/Obligations.lean ====
section
/-! DEFINITION. The statements for the provers. -/

open Sys2Proof Sys2Proof.Machine

/-! ### The step -/

/-- A step runs the command at the front of the queue, on the state with the queue's rest. -/
def Obligations.StepRunsTheFrontCommand : Prop :=
  ∀ (s : State) (c : Instr) (rest : List Instr), s.pending = c :: rest →
    step s = exec c { s with pending := rest }

/-- On an empty queue what has fallen due takes place, else the millisecond count advances: the
model's choice (log 3). -/
def Obligations.EmptyQueueTakesWhatIsDueOrTicks : Prop :=
  ∀ s : State, s.pending = [] →
    (∀ c, dueNow s = some c → step s = exec c s) ∧
    (dueNow s = none → step s = .next { s with ms := s.ms + 1 })

/-- No command and no step ends in a fault or a refusal: each answers a next state (00, "How errors reach
the host"). That a command whose happening cannot occur in the present state answers a next state too is
the model's choice (log 2). -/
def Obligations.EveryCommandAndStepAnswersNext : Prop :=
  (∀ (c : Instr) (s : State), ∃ t, exec c s = .next t) ∧ (∀ s : State, ∃ t, step s = .next t)

/-! ### Reset (R181 and the reset rules of the chapters) -/

/-- Every block is in its reset state in `State.reset`: no record, no list entry, one free extent in
each memory, the PSU IDLE, no sample word in progress, both sessions CLOSED, the marker at U, the ports
silent, ATTN low. -/
def Obligations.ResetLeavesEveryBlockInItsResetState : Prop :=
  let s := State.reset
  (∀ r, s.ring r = none) ∧ (∀ c, s.binding c = none) ∧ s.spWord = [] ∧ (∀ j, s.job j = none) ∧
  (∀ c, s.cls c = []) ∧ s.psu = none ∧ (∀ c, s.coef c = none) ∧
  s.sampleFree = [{ base := 0, size := 32768 }] ∧ s.coefFree = [{ base := 0, size := 8192 }] ∧
  (∀ x, (s.session x).isOpen = false ∧ (s.session x).queue = [] ∧ (s.session x).cache = [] ∧
    (s.session x).results = [] ∧ (s.session x).heldOrder = [] ∧ (s.session x).load = none ∧
    (s.session x).pendingList = [] ∧ (s.session x).inFlight = [] ∧ (s.session x).timer = none) ∧
  s.lastServed = .u ∧
  (∀ p, (s.port p).rx = .hunt ∧ (s.port p).fifo = [] ∧ (s.port p).lineErrors = 0) ∧
  s.txU = none ∧ s.txS.current = none ∧ attn s = false ∧ s.pending = []

/-- RSTN puts every block in its reset state from whatever state, discards a partly received sample word,
samples BAUD, waits for mark when URX is at space, measuring the time at space from the release, and leaves
the queue of waiting commands alone (R181, R171, R9). That the fields of a CLOSED session that hold no
meaning are 0 and off is the model's choice (log 12), and so is a window open at the release when SSEL is
low (log 13). -/
def Obligations.DeviceResetClearsThePart : Prop :=
  ∀ (s : State) (baud : Level) (lines : Lines), ∃ t, exec (.rstn baud lines) s = .next t ∧
    (∀ r, t.ring r = none) ∧ (∀ c, t.binding c = none) ∧ t.spWord = [] ∧ (∀ j, t.job j = none) ∧
    (∀ c, t.cls c = []) ∧ t.psu = none ∧ (∀ c, t.coef c = none) ∧
    t.sampleFree = [{ base := 0, size := 32768 }] ∧ t.coefFree = [{ base := 0, size := 8192 }] ∧
    (∀ x, t.session x = Session.closed) ∧ t.lastServed = .u ∧
    (∀ p, t.port p = { rx := .hunt, fifo := [], lineErrors := 0 }) ∧
    t.txU = none ∧ t.txS = { selected := lines.ssel = .low, current := none, filler := false } ∧
    attn t = false ∧ t.ms = 0 ∧ t.baud = baud ∧ (lines.urx = .high → t.urx = .following) ∧
    (lines.urx = .low → t.urx = .atSpace 0 0) ∧ t.pending = s.pending

/-- Every law that a safe run keeps holds at reset. -/
def Obligations.TheLawsHoldAtReset : Prop :=
  let s := State.reset
  SchedulerLaw s ∧ ArmedLaw s ∧ ReferenceLaw s ∧ BindingLaw s ∧ WindowLaw s ∧ ClosedLaw s ∧
  ExtentLaw s ∧ HeldLaw s ∧ Bounded s ∧ SequenceLaw s ∧ NoticeSequenceLaw s ∧ TimerLaw s ∧
  EntriesDistinct s ∧ AlertsOwned s ∧ WatchLaw s ∧ Quiet s ∧ MemoriesCanonical s

/-! ### The end of a happening -/

/-- The arbiter's choice (R180, R156, R157, R159): a reply, else the oldest marked notice, else the head
of the pending list while fewer than 4 are in flight, else nothing. -/
def Obligations.ArbiterTakesReplyThenMarkedThenPending : Prop :=
  ∀ (p : Port) (s : State),
    (∀ f rest, (s.port p).fifo = f :: rest →
      arbiter p s = (some f, s.modPort p fun y => { y with fifo := rest })) ∧
    (∀ pre n post, (s.port p).fifo = [] → (s.session p).isOpen = true →
      (s.session p).inFlight = pre ++ n :: post → (∀ m ∈ pre, m.marked = false) →
      n.marked = true →
      arbiter p s = (some n.frame, s.modSession p fun z =>
        { z with inFlight := pre ++ { n with marked := false, sentAt := none } :: post })) ∧
    (∀ e rest, (s.port p).fifo = [] → (s.session p).isOpen = true →
      (∀ m ∈ (s.session p).inFlight, m.marked = false) → (s.session p).inFlight.length < 4 →
      (s.session p).pendingList = e :: rest → (∀ j c v n k, e ≠ .alert j c v n k) →
      arbiter p s = (some (noticeFrame (s.session p) e), s.modSession p fun z =>
        { z with
          pendingList := rest
          inFlight := z.inFlight ++
            [{ frame := noticeFrame (s.session p) e, marked := false, sentAt := none }]
          noticeSeq := z.noticeSeq + 1 })) ∧
    (∀ j c v n k rest b w, (s.port p).fifo = [] → (s.session p).isOpen = true →
      (∀ m ∈ (s.session p).inFlight, m.marked = false) → (s.session p).inFlight.length < 4 →
      (s.session p).pendingList = .alert j c v n k :: rest → s.job j = some b → b.watch = some w →
      arbiter p s = (some (noticeFrame (s.session p) (.alert j c v n k)),
        (s.putJob j (some { b with watch := some { w with reported := c } })).modSession p fun z =>
          { z with
            pendingList := rest
            inFlight := z.inFlight ++
              [{ frame := noticeFrame (s.session p) (.alert j c v n k), marked := false,
                 sentAt := none }]
            noticeSeq := z.noticeSeq + 1 })) ∧
    ((s.port p).fifo = [] →
      ((s.session p).isOpen = false ∨
        ((∀ m ∈ (s.session p).inFlight, m.marked = false) ∧
          ((s.session p).pendingList = [] ∨ 4 ≤ (s.session p).inFlight.length))) →
      arbiter p s = (none, s))

/-! ### Execution of commands (R143 to R145, R185) -/

/-- Of two sessions with a command waiting and room in their reply FIFO the one that the marker does not
name is served, else the one that has both, else none (R144). A payload length other than the one the
code calls for is answered BAD_LENGTH, an unknown code BAD_KIND (a payload of no byte has code 00h), and
neither command reaches a block (R185, R145). -/
def Obligations.UndecodedCommandsReachNoBlock : Prop :=
  (∀ (s : State) (x : Port) (q : Byte) (rest : List Command),
      (∀ code n c args,
        (code, n, c) ∈ ([(0x11, 0, .bye x), (0x12, 0, .status x), (0x20, 4, .ringCreate x),
          (0x21, 1, .ringDelete x), (0x22, 1, .ringFlush x), (0x24, 8, .ringRead x),
          (0x25, 1, .ringQuery x), (0x30, 3, .setBegin x), (0x32, 2, .setEnd x),
          (0x33, 0, .setAbort x), (0x34, 1, .setDelete x), (0x35, 1, .setQuery x),
          (0x38, 0, .memQuery x), (0x40, 17, .jobDefine x), (0x41, 1, .jobArm x),
          (0x42, 1, .jobStart x), (0x43, 1, .jobCancel x), (0x44, 1, .jobDelete x),
          (0x45, 1, .jobQuery x), (0x46, 10, .jobWatch x), (0x50, 1, .fetch x)] :
            List (Byte × Nat × Instr)) →
        NextIs x q (code :: args) rest s → args.length ≠ n →
        exec c s = .next (answered x q .badLength code [] rest s)) ∧
      (∀ args, NextIs x q (0x23 :: args) rest s →
        (args.length < 2 ∨ ∃ id n l, args = id :: n :: l ∧ l.length ≠ 2 * n.toNat) →
        exec (.ringWrite x) s = .next (answered x q .badLength 0x23 [] rest s)) ∧
      (∀ args, NextIs x q (0x31 :: args) rest s →
        (args.length < 3 ∨ ∃ o0 o1 n l, args = o0 :: o1 :: n :: l ∧ l.length ≠ 2 * n.toNat) →
        exec (.setData x) s = .next (answered x q .badLength 0x31 [] rest s))) ∧
  (∀ (s : State) (x : Port) (q : Byte) (payload : List Byte) (rest : List Command),
      NextIs x q payload rest s → codeOf payload ∉ commandCodes →
      exec (.badKind x) s = .next (answered x q .badKind (codeOf payload) [] rest s)) ∧
  (∀ s : State,
      let ready (x : Port) := (s.session x).queue ≠ [] ∧ (s.port x).fifo.length < 8
      (∀ x, ready x → ¬ ready (otherPort x) → served s = some x) ∧
      (∀ x, ready x → ready (otherPort x) → s.lastServed = otherPort x → served s = some x) ∧
      ((∀ x, ¬ ready x) → served s = none))

/-- RING_QUERY, SET_QUERY, JOB_QUERY, MEM_QUERY and STATUS report the state as it stands and change
nothing but the queue, the cache and the reply FIFO; an id out of range is refused BAD_ARG (R21, R116,
R47, R128, R148). -/
def Obligations.QueriesReportAndChangeNothing : Prop :=
  ∀ (s : State) (x : Port) (q : Byte) (rest : List Command),
    (∀ r : RingId, NextIs x q [0x25, idByte r] rest s → exec (.ringQuery x) s =
      .next (answered x q .ok 0x25 (idByte r :: match s.ring r with
        | some g => ringFigures g (pin r s)
        | none => zeros 24) rest s)) ∧
    (∀ c : SetId, NextIs x q [0x35, idByte c] rest s → exec (.setQuery x) s =
      .next (answered x q .ok 0x35 (idByte c :: match s.coef c with
        | some v => setFigures v (loadedOf c v s)
        | none => zeros 12) rest s)) ∧
    (∀ j : JobId, NextIs x q [0x45, idByte j] rest s → exec (.jobQuery x) s =
      .next (answered x q .ok 0x45 (idByte j :: match s.job j with
        | some b => jobFigures b
        | none => zeros 72) rest s)) ∧
    (NextIs x q [0x38] rest s → exec (.memQuery x) s =
      .next (answered x q .ok 0x38 (extentBytes s.sampleFree ++ extentBytes s.coefFree) rest s)) ∧
    (NextIs x q [0x12] rest s → exec (.status x) s =
      .next (answered x q .ok 0x12
        (statusFigures x (s.modSession x fun z => { z with queue := rest })) rest s)) ∧
    (∀ id : Byte, 8 ≤ id.toNat → NextIs x q [0x25, id] rest s →
      exec (.ringQuery x) s = .next (answered x q .badArg 0x25 (id :: zeros 24) rest s)) ∧
    (∀ id : Byte, 16 ≤ id.toNat → NextIs x q [0x35, id] rest s →
      exec (.setQuery x) s = .next (answered x q .badArg 0x35 (id :: zeros 12) rest s)) ∧
    (∀ id : Byte, 32 ≤ id.toNat → NextIs x q [0x45, id] rest s →
      exec (.jobQuery x) s = .next (answered x q .badArg 0x45 (id :: zeros 72) rest s))

/-! ### Rings -/

/-- RING_CREATE, its checks in order and its effect, with the extent by first fit (R17, R8, R124). -/
def Obligations.RingCreateChecksAndCreates : Prop :=
  ∀ (s : State) (x : Port) (q id src c0 c1 : Byte) (rest : List Command),
    NextIs x q [0x20, id, src, c0, c1] rest s →
    let capacity := c0.toNat + 256 * c1.toNat
    let refused (st : Status) :=
      exec (.ringCreate x) s = .next (answered x q st 0x20 [id, 0, 0] rest s)
    (8 ≤ id.toNat → refused .badArg) ∧
    (∀ r, id = idByte (n := 8) r →
      ((s.ring r).isSome → refused .noSlot) ∧
      (s.ring r = none →
        (4 ≤ src.toNat → src ≠ 0x10 → refused .badArg) ∧
        (∀ source, source? src = some source →
          (capacity < 16 ∨ 16384 < capacity → refused .badArg) ∧
          (16 ≤ capacity → capacity ≤ 16384 →
            (sourceBound source s = true → refused .channelBound) ∧
            (sourceBound source s = false →
              ((∀ e ∈ s.sampleFree, e.size < capacity) → refused .noSpace) ∧
              (∀ pre e post, s.sampleFree = pre ++ e :: post → (∀ d ∈ pre, d.size < capacity) →
                capacity ≤ e.size →
                let left := if e.size = capacity then post
                  else { base := e.base + capacity, size := e.size - capacity } :: post
                exec (.ringCreate x) s =
                  .next (answered x q .ok 0x20 (id :: leBytes 2 e.base) rest
                    (bindSource source r ({ s with sampleFree := pre ++ left }.putRing r
                      (some { owner := some x, orphaned := false, source := source, base := e.base,
                              capacity := capacity, head := 0, fill := 0, refs := 0 }))))))))))

/-- RING_DELETE, its checks in order and its effect (R18, R1). -/
def Obligations.RingDeleteChecksAndFrees : Prop :=
  ∀ (s : State) (x : Port) (q id : Byte) (rest : List Command), NextIs x q [0x21, id] rest s →
    let refused (st : Status) :=
      exec (.ringDelete x) s = .next (answered x q st 0x21 [id] rest s)
    (8 ≤ id.toNat → refused .badArg) ∧
    (∀ r, id = idByte (n := 8) r →
      (s.ring r = none → refused .notFound) ∧
      (∀ g, s.ring r = some g →
        (g.orphaned = true ∨ g.owner ≠ some x → refused .notOwner) ∧
        (g.orphaned = false → g.owner = some x →
          (g.refs ≠ 0 → refused .inUse) ∧
          (g.refs = 0 → exec (.ringDelete x) s =
            .next (answered x q .ok 0x21 [id] rest
              ({ (match g.source with | .channel c => s.putBinding c none | .host => s) with
                 sampleFree := freeExtent g.base g.capacity s.sampleFree }.putRing r none))))))

/-- What evictions leave: each victim at its return state with one more window lost and off the ready
queue, the run of a RUNNING victim abandoned, one FAULT request for each victim's owner in the order
given, and nothing else changed (R11, R39, R40, R66). A request makes an entry with count 1 at the tail,
or folds into the job's entry in place: the ring of this eviction, the count one higher up to 65535
(R40). -/
def Obligations.EvictionsTakeEachVictimToItsReturnState : Prop :=
  (∀ (j : JobId) (r : RingId) (l : List Entry), (∀ e ∈ l, e.isFaultOf j = false) →
    requestFault j r l = l ++ [.fault j r 1]) ∧
  (∀ (j : JobId) (r r' : RingId) (n : Nat) (pre post : List Entry),
    (∀ e ∈ pre ++ post, e.isFaultOf j = false) → n ≤ 65535 →
    requestFault j r (pre ++ .fault j r' n :: post) =
      pre ++ .fault j r (min (n + 1) 65535) :: post) ∧
  ∀ (r : RingId) (victims : List JobId) (s : State), victims.Nodup →
    (∀ j ∈ victims, ∃ b, s.job j = some b ∧ b.state.pins = true) →
    ∃ jobs ready psu sessions,
      evictAll r victims s =
        { s with jobs := jobs, ready := ready, psu := psu, sessions := sessions } ∧
      (∀ j b, j ∈ victims → s.job j = some b → jobs.look j = some { b with
        state := if b.armed then .armed else .defined, lost := bump Config.counterLimit b.lost }) ∧
      (∀ j, j ∉ victims → jobs.look j = s.job j) ∧
      (∀ c, ready.look c = (s.cls c).filter fun j => !(victims.contains j && waitsIn c s j)) ∧
      ((∃ j b, j ∈ victims ∧ s.job j = some b ∧ b.state = .running) → psu = none) ∧
      ((∀ j b, j ∈ victims → s.job j = some b → b.state ≠ .running) → psu = s.psu) ∧
      (∀ y, sessions.look y = { s.session y with
        pendingList := (victims.filter (ownedBy y s)).foldl (fun l j => requestFault j r l)
          (s.session y).pendingList })

/-- RING_FLUSH evicts every pinning job in ascending id and sets the fill to 0; its refusals change
nothing (R19). -/
def Obligations.RingFlushEvictsAndEmpties : Prop :=
  ∀ (s : State) (x : Port) (q id : Byte) (rest : List Command), NextIs x q [0x22, id] rest s →
    let refused (st : Status) :=
      exec (.ringFlush x) s = .next (answered x q st 0x22 [id, 0] rest s)
    (8 ≤ id.toNat → refused .badArg) ∧
    (∀ r, id = idByte (n := 8) r →
      (s.ring r = none → refused .notFound) ∧
      (∀ g, s.ring r = some g →
        (g.orphaned = true ∨ g.owner ≠ some x → refused .notOwner) ∧
        (g.orphaned = false → g.owner = some x →
          let victims := allJobs.filter fun j => match s.job j with
            | some b => b.pinsRing r
            | none => false
          exec (.ringFlush x) s =
            .next (answered x q .ok 0x22 [id, BitVec.ofNat 8 victims.length] rest
              ((evictAll r victims s).putRing r (some { g with fill := 0 }))))))

/-- What one countdown step leaves (R13, R34 to R37): every armed job of the ring counts down; one that
reaches 0 reloads and is skipped, fires or misses; jobs that fire join the tail of their class in
ascending id; a missed trigger requests an OVERRUN entry, which is made with count 1 at the tail or folds
into the job's entry in place up to 65535 (R37); nothing else changes. -/
def Obligations.CountdownStepTriggersTheArmedJobs : Prop :=
  (∀ (j : JobId) (l : List Entry), (∀ e ∈ l, e.isOverrunOf j = false) →
    requestOverrun j l = l ++ [.overrun j 1]) ∧
  (∀ (j : JobId) (n : Nat) (pre post : List Entry),
    (∀ e ∈ pre ++ post, e.isOverrunOf j = false) → n ≤ 65535 →
    requestOverrun j (pre ++ .overrun j n :: post) =
      pre ++ .overrun j (min (n + 1) 65535) :: post) ∧
  ∀ (s : State) (r : RingId) (head fill : Nat), ∃ jobs ready sessions,
    countdownStep r head fill s = { s with jobs := jobs, ready := ready, sessions := sessions } ∧
    (∀ j, s.job j = none → jobs.look j = none) ∧
    (∀ j b, s.job j = some b →
      (b.armed = false ∨ b.ring ≠ r → jobs.look j = some b) ∧
      (b.armed = true → b.ring = r → 1 < b.countdown →
        jobs.look j = some { b with countdown := b.countdown - 1 }) ∧
      (b.armed = true → b.ring = r → b.countdown ≤ 1 → fill < b.par.length →
        jobs.look j = some { b with
          countdown := b.par.stride, skipped := bump Config.counterLimit b.skipped }) ∧
      (b.dueAt r fill = true → b.state = .armed →
        jobs.look j = some { b with
          countdown := b.par.stride, state := .ready, windowStart := head - b.par.length,
          triggerHead := head, extra := false, preempted := false }) ∧
      (b.dueAt r fill = true → b.state ≠ .armed → b.state ≠ .defined →
        jobs.look j = some { b with
          countdown := b.par.stride, missed := bump Config.counterLimit b.missed })) ∧
    (∀ c, ready.look c = s.cls c ++ allJobs.filter fun j => firesAt r fill s j &&
      match s.job j with | some b => b.par.priority = c | none => false) ∧
    (∀ y, sessions.look y = { s.session y with
      pendingList := (allJobs.filter (missesAt r fill y s)).foldl (fun l j => requestOverrun j l)
        (s.session y).pendingList })

/-- A sample on an unbound channel, or for a ring whose head is at its limit, is discarded (R10). A period
that completes no word changes only the word in progress: a mark discards it and begins a new one, a bit
outside a word is ignored, any other of the first seventeen bits is taken; periods are taken one after
another (R9). -/
def Obligations.UntakenSampleChangesNothing : Prop :=
  (∀ (s : State) (c : ChannelId) (v : Word16),
    (s.binding c = none ∨
      ∃ r g, s.binding c = some r ∧ s.ring r = some g ∧ 281474976710655 ≤ g.head) →
    exec (.sampleArrival (wordPeriods c v)) s = .next { s with spWord := [] }) ∧
  (∀ (s : State) (bit : Bool),
    exec (.sampleArrival [{ mark := true, bit := bit }]) s = .next { s with spWord := [bit] } ∧
    (s.spWord = [] → exec (.sampleArrival [{ mark := false, bit := bit }]) s = .next s) ∧
    (1 ≤ s.spWord.length → s.spWord.length ≤ 16 →
      exec (.sampleArrival [{ mark := false, bit := bit }]) s =
        .next { s with spWord := s.spWord ++ [bit] })) ∧
  (∀ (s t : State) (l m : List SpPeriod), exec (.sampleArrival l) s = .next t →
    exec (.sampleArrival (l ++ m)) s = exec (.sampleArrival m) t)

/-- A stream sample, whose word discards one in progress: eviction of the jobs that would lose their
window, the write, the countdown step (R9, R12, R2, R3). -/
def Obligations.StreamSampleEvictsWritesAndCounts : Prop :=
  ∀ (s : State) (c : ChannelId) (v : Word16) (r : RingId) (g : Ring),
    s.binding c = some r → s.ring r = some g → g.head < 281474976710655 →
    let victims := allJobs.filter fun j => match s.job j with
      | some b => b.pinsRing r && b.windowStart ≤ g.head - g.capacity
      | none => false
    let s0 := { s with spWord := [] }
    let s1 := if g.capacity ≤ g.head then evictAll r victims s0 else s0
    let s2 := { s1 with
      sampleMem := s.sampleMem.write (g.base + g.head % g.capacity) v }.putRing r
        (some { g with head := g.head + 1, fill := min (g.fill + 1) g.capacity })
    exec (.sampleArrival (wordPeriods c v)) s =
      .next (finish (countdownStep r (g.head + 1) (min (g.fill + 1) g.capacity) s2))

/-- RING_WRITE (R14, R15, R2, R3): to a ring without armed jobs it stores as many samples as the head's
limit and the pin leave room for; a single sample is followed by the countdown step; in every case the
samples are taken one after another, each tested against the pin afresh and followed by its countdown
step, up to the first that may not be written (R16); its refusals write nothing. -/
def Obligations.RingWriteStoresOrStopsAtThePin : Prop :=
  (∀ (s : State) (x : Port) (q : Byte) (r : RingId) (g : Ring) (ws : List Word16)
      (rest : List Command),
      NextIs x q (0x23 :: idByte r :: BitVec.ofNat 8 ws.length :: bytes16 ws) rest s →
      s.ring r = some g → g.orphaned = false → g.owner = some x → g.source = .host →
      g.fill ≤ g.capacity → 1 ≤ ws.length → ws.length ≤ 120 →
      (∀ j b, s.job j = some b → b.ring = r → b.armed = false) →
      let room := match pin r s with
        | some p => min (p + g.capacity - g.head) (281474976710655 - g.head)
        | none => 281474976710655 - g.head
      let k := min ws.length room
      exec (.ringWrite x) s =
        .next (answered x q (if k = ws.length then .ok else .ringFull) 0x23
          (idByte r :: BitVec.ofNat 8 k :: leBytes 6 (g.head + k)) rest
          ({ s with
             sampleMem := ((ws.take k).zipIdx).foldl
               (fun m (v, i) => m.write (g.base + (g.head + i) % g.capacity) v)
               s.sampleMem }.putRing r
             (some { g with head := g.head + k, fill := min (g.fill + k) g.capacity })))) ∧
  (∀ (s : State) (x : Port) (q : Byte) (r : RingId) (g : Ring) (v : Word16) (rest : List Command),
      NextIs x q (0x23 :: idByte r :: 1 :: leBytes 2 v.toNat) rest s →
      s.ring r = some g → g.orphaned = false → g.owner = some x → g.source = .host →
      g.head < 281474976710655 → (∀ p, pin r s = some p → g.head < p + g.capacity) →
      exec (.ringWrite x) s =
        .next (answered x q .ok 0x23 (idByte r :: 1 :: leBytes 6 (g.head + 1)) rest
          (countdownStep r (g.head + 1) (min (g.fill + 1) g.capacity)
            ({ s with sampleMem := s.sampleMem.write (g.base + g.head % g.capacity) v }.putRing r
              (some { g with head := g.head + 1, fill := min (g.fill + 1) g.capacity }))))) ∧
  (∀ (s : State) (x : Port) (q : Byte) (r : RingId) (g : Ring) (ws : List Word16)
      (rest : List Command),
      NextIs x q (0x23 :: idByte r :: BitVec.ofNat 8 ws.length :: bytes16 ws) rest s →
      s.ring r = some g → g.orphaned = false → g.owner = some x → g.source = .host →
      1 ≤ ws.length → ws.length ≤ 120 →
      ∃ (k : Nat) (after : Nat → State), k ≤ ws.length ∧ after 0 = s ∧
        (∀ i, i ≤ k → ∃ gi, (after i).ring r = some gi ∧
          let full := 281474976710655 ≤ gi.head ∨
            ∃ p, pin r (after i) = some p ∧ p + gi.capacity ≤ gi.head
          (∀ v, i < k → ws[i]? = some v → ¬ full ∧
            after (i + 1) = countdownStep r (gi.head + 1) (min (gi.fill + 1) gi.capacity)
              ({ after i with
                 sampleMem := (after i).sampleMem.write (gi.base + gi.head % gi.capacity) v }.putRing r
                (some { gi with head := gi.head + 1, fill := min (gi.fill + 1) gi.capacity }))) ∧
          (i = k → k < ws.length → full) ∧
          (i = k → exec (.ringWrite x) s =
            .next (answered x q (if k = ws.length then .ok else .ringFull) 0x23
              (idByte r :: BitVec.ofNat 8 k :: leBytes 6 gi.head) rest (after k))))) ∧
  (∀ (s : State) (x : Port) (q id : Byte) (ws : List Word16) (rest : List Command),
      NextIs x q (0x23 :: id :: BitVec.ofNat 8 ws.length :: bytes16 ws) rest s → ws.length ≤ 122 →
      let refused (st : Status) :=
        exec (.ringWrite x) s = .next (answered x q st 0x23 (id :: zeros 7) rest s)
      (8 ≤ id.toNat → refused .badArg) ∧
      (∀ r, id = idByte (n := 8) r →
        (s.ring r = none → refused .notFound) ∧
        (∀ g, s.ring r = some g →
          (g.orphaned = true ∨ g.owner ≠ some x → refused .notOwner) ∧
          (g.orphaned = false → g.owner = some x →
            (g.source ≠ .host → refused .wrongState) ∧
            (g.source = .host →
              (ws.length = 0 ∨ 120 < ws.length → refused .badArg) ∧
              (1 ≤ ws.length → ws.length ≤ 120 →
                (g.head = 281474976710655 ∨
                  ∃ p, pin r s = some p ∧ g.capacity ≤ g.head ∧ p ≤ g.head - g.capacity) →
                exec (.ringWrite x) s =
                  .next (answered x q .ringFull 0x23 (id :: 0 :: leBytes 6 g.head) rest s)))))))

/-- RING_READ returns the present samples it names and changes nothing; its refusals carry zeros
(R20). The zeros are the model's reading (log 16). -/
def Obligations.RingReadReturnsPresentSamples : Prop :=
  ∀ (s : State) (x : Port) (q id i0 i1 i2 i3 i4 i5 count : Byte) (rest : List Command),
    NextIs x q [0x24, id, i0, i1, i2, i3, i4, i5, count] rest s →
    let first := leNat [i0, i1, i2, i3, i4, i5]
    let refused (st : Status) :=
      exec (.ringRead x) s = .next (answered x q st 0x24 (zeros 5) rest s)
    (8 ≤ id.toNat → refused .badArg) ∧
    (∀ r, id = idByte (n := 8) r →
      (s.ring r = none → refused .notFound) ∧
      (∀ g, s.ring r = some g →
        (count = 0 ∨ 120 < count.toNat → refused .badArg) ∧
        (count ≠ 0 → count.toNat ≤ 120 →
          (first < g.head - g.fill ∨ g.head < first + count.toNat → refused .notPresent) ∧
          (g.head - g.fill ≤ first → first + count.toNat ≤ g.head →
            exec (.ringRead x) s =
              .next (answered x q .ok 0x24
                (leBytes 4 first ++ [count] ++ (List.range count.toNat).flatMap fun k =>
                  leBytes 2 (s.readSample (g.base + (first + k) % g.capacity)).toNat) rest s)))))

/-! ### Sets -/

/-- SET_BEGIN, its checks in order and its effect, with the extent by first fit (R109, R124). -/
def Obligations.SetBeginChecksAndOpensALoad : Prop :=
  ∀ (s : State) (x : Port) (q id l0 l1 : Byte) (rest : List Command),
    NextIs x q [0x30, id, l0, l1] rest s →
    let length := l0.toNat + 256 * l1.toNat
    let refused (st : Status) :=
      exec (.setBegin x) s = .next (answered x q st 0x30 [id, 0, 0] rest s)
    (16 ≤ id.toNat → refused .badArg) ∧
    (∀ c, id = idByte (n := 16) c →
      ((s.session x).load.isSome → refused .loadOpen) ∧
      ((s.session x).load = none →
        ((s.coef c).isSome → refused .noSlot) ∧
        (s.coef c = none →
          (length = 0 ∨ 4096 < length → refused .badArg) ∧
          (1 ≤ length → length ≤ 4096 →
            ((∀ e ∈ s.coefFree, e.size < length) → refused .noSpace) ∧
            (∀ pre e post, s.coefFree = pre ++ e :: post → (∀ d ∈ pre, d.size < length) →
              length ≤ e.size →
              let left := if e.size = length then post
                else { base := e.base + length, size := e.size - length } :: post
              exec (.setBegin x) s =
                .next (answered x q .ok 0x30 (id :: leBytes 2 e.base) rest
                  (({ s with coefFree := pre ++ left }.putCoef c
                    (some { owner := some x, base := e.base, length := length, refs := 0,
                            phase := .loading })).modSession x fun z =>
                    { z with load := some { set := c, next := 0 } })))))))

/-- SET_DATA against the next offset of the session's load context (R110, R111, Table 6-3). -/
def Obligations.SetDataFollowsTheNextOffset : Prop :=
  ∀ (s : State) (x : Port) (q o0 o1 : Byte) (ws : List Word16) (rest : List Command),
    NextIs x q (0x31 :: o0 :: o1 :: BitVec.ofNat 8 ws.length :: bytes16 ws) rest s →
    ws.length ≤ 122 →
    let o := o0.toNat + 256 * o1.toNat
    ((s.session x).load = none →
      exec (.setData x) s = .next (answered x q .noLoad 0x31 [0, 0, 0] rest s)) ∧
    (∀ l v, (s.session x).load = some l → s.coef l.set = some v →
      let stays (st : Status) := exec (.setData x) s =
        .next (answered x q st 0x31 (idByte l.set :: leBytes 2 l.next) rest s)
      (ws.length = 0 ∨ 120 < ws.length ∨ v.length < o + ws.length → stays .badArg) ∧
      (1 ≤ ws.length → ws.length ≤ 120 → o + ws.length ≤ v.length →
        (o = l.next → exec (.setData x) s =
          .next (answered x q .ok 0x31 (idByte l.set :: leBytes 2 (l.next + ws.length)) rest
            ({ s with
               coefMem := (ws.zipIdx).foldl (fun m (w, i) => m.write (v.base + o + i) w)
                 s.coefMem }.modSession x fun z =>
              { z with load := some { l with next := l.next + ws.length } }))) ∧
        (o ≠ l.next → o + ws.length ≤ l.next → stays .duplicate) ∧
        (o ≠ l.next → l.next < o + ws.length → stays .outOfSequence)))

/-- SET_END: INCOMPLETE, CHECK_FAILED, or the set becomes READY and the context closes (R112, R113).
The next offset 0 in an OK reply is the model's reading (log 17). -/
def Obligations.SetEndChecksTheStoredCoefficients : Prop :=
  ∀ (s : State) (x : Port) (q k0 k1 : Byte) (rest : List Command), NextIs x q [0x32, k0, k1] rest s →
    ((s.session x).load = none →
      exec (.setEnd x) s = .next (answered x q .noLoad 0x32 (zeros 7) rest s)) ∧
    (∀ l v, (s.session x).load = some l → s.coef l.set = some v →
      let crc := crc16 ((List.range v.length).flatMap fun k =>
        leBytes 2 (s.readCoef (v.base + k)).toNat)
      (l.next < v.length → exec (.setEnd x) s =
        .next (answered x q .incomplete 0x32 (idByte l.set :: leBytes 2 l.next ++ zeros 4) rest s)) ∧
      (v.length ≤ l.next → crc.toNat ≠ k0.toNat + 256 * k1.toNat → exec (.setEnd x) s =
        .next (answered x q .checkFailed 0x32 (idByte l.set :: zeros 4 ++ leBytes 2 crc.toNat) rest
          (s.modSession x fun z => { z with load := some { l with next := 0 } }))) ∧
      (v.length ≤ l.next → crc.toNat = k0.toNat + 256 * k1.toNat → exec (.setEnd x) s =
        .next (answered x q .ok 0x32
          (idByte l.set :: zeros 2 ++ leBytes 2 v.length ++ leBytes 2 crc.toNat) rest
          ((s.putCoef l.set (some { v with refs := 0, phase := .ready false crc })).modSession x
            fun z => { z with load := none }))))

/-- SET_ABORT and SET_DELETE free a set, or are refused and change nothing (R114, R115, R104). -/
def Obligations.SetAbortAndSetDeleteFreeASet : Prop :=
  ∀ (s : State) (x : Port) (q : Byte) (rest : List Command),
    (NextIs x q [0x33] rest s →
      ((s.session x).load = none →
        exec (.setAbort x) s = .next (answered x q .noLoad 0x33 [0] rest s)) ∧
      (∀ l v, (s.session x).load = some l → s.coef l.set = some v →
        exec (.setAbort x) s = .next (answered x q .ok 0x33 [idByte l.set] rest
          (({ s with coefFree := freeExtent v.base v.length s.coefFree }.putCoef l.set
            none).modSession x fun z => { z with load := none })))) ∧
    (∀ id, NextIs x q [0x34, id] rest s →
      let refused (st : Status) :=
        exec (.setDelete x) s = .next (answered x q st 0x34 [id] rest s)
      (16 ≤ id.toNat → refused .badArg) ∧
      (∀ c, id = idByte (n := 16) c →
        (s.coef c = none → refused .notFound) ∧
        (∀ v, s.coef c = some v →
          (v.isOrphaned = true ∨ v.owner ≠ some x → refused .notOwner) ∧
          (v.isOrphaned = false → v.owner = some x →
            (v.phase = .loading → refused .wrongState) ∧
            (v.phase ≠ .loading →
              (v.refs ≠ 0 → refused .inUse) ∧
              (v.refs = 0 → exec (.setDelete x) s = .next (answered x q .ok 0x34 [id] rest
                ({ s with coefFree := freeExtent v.base v.length s.coefFree }.putCoef c none))))))))

/-! ### Jobs -/

/-- JOB_DEFINE that passes its checks: on an EMPTY record the job is DEFINED with its fields at their start
values (R29, R31); on a DEFINED job of the session the new references are taken before the old ones are
released, the run number is kept, the watch goes and a pending ALERT entry is withdrawn (R30, R31). -/
def Obligations.JobDefineDefinesAndRedefines : Prop :=
  (∀ (s : State) (x : Port) (q l0 l1 t0 t1 h0 h1 p0 p1 p2 p3 psh osh : Byte) (j : JobId) (r : RingId)
      (c : SetId) (pr : ClassId) (mode : RunMode) (g : Ring) (v : CoefSet) (crc : Word16)
      (rest : List Command),
      NextIs x q [0x40, idByte j, idByte r, idByte c, l0, l1, t0, t1, h0, h1, idByte pr, mode.code,
        p0, p1, p2, p3, psh, osh] rest s →
      let length := l0.toNat + 256 * l1.toNat
      s.job j = none → s.ring r = some g → g.orphaned = false → s.coef c = some v →
      v.phase = .ready false crc →
      1 ≤ length → length ≤ 4096 → length ≤ g.capacity → length ≤ v.length →
      psh.toNat ≤ 16 → osh.toNat ≤ 31 →
      exec (.jobDefine x) s = .next (answered x q .ok 0x40 [idByte j] rest
        (((s.putRing r (some { g with refs := g.refs + 1 })).putCoef c
          (some { v with refs := v.refs + 1 })).putJob j
          (some { state := .defined, owner := x, ring := r, set := c,
                  par := { length := length, stride := t0.toNat + 256 * t1.toNat,
                           phase := h0.toNat + 256 * h1.toNat, priority := pr, mode := mode,
                           preset := intOf32 [p0, p1, p2, p3], presetShift := psh.toNat,
                           outputShift := osh.toNat },
                  armed := false, countdown := 0, windowStart := 0, triggerHead := 0, extra := false,
                  preempted := false, watch := none, runNumber := 0, completed := 0, missed := 0,
                  skipped := 0, lost := 0 })))) ∧
  (∀ (s : State) (x : Port) (q l0 l1 t0 t1 h0 h1 p0 p1 p2 p3 psh osh : Byte) (j : JobId) (b : Job)
      (r : RingId) (c : SetId) (pr : ClassId) (mode : RunMode) (g : Ring) (v : CoefSet) (crc : Word16)
      (rest : List Command),
      NextIs x q [0x40, idByte j, idByte r, idByte c, l0, l1, t0, t1, h0, h1, idByte pr, mode.code,
        p0, p1, p2, p3, psh, osh] rest s →
      let length := l0.toNat + 256 * l1.toNat
      s.job j = some b → b.owner = x → b.state = .defined →
      s.ring r = some g → g.orphaned = false → s.coef c = some v → v.phase = .ready false crc →
      1 ≤ length → length ≤ 4096 → length ≤ g.capacity → length ≤ v.length →
      psh.toNat ≤ 16 → osh.toNat ≤ 31 →
      exec (.jobDefine x) s = .next (answered x q .ok 0x40 [idByte j] rest
        (((unrefSet b.set (refSet c (unrefRing b.ring (refRing r s)))).putJob j
          (some { state := .defined, owner := x, ring := r, set := c,
                  par := { length := length, stride := t0.toNat + 256 * t1.toNat,
                           phase := h0.toNat + 256 * h1.toNat, priority := pr, mode := mode,
                           preset := intOf32 [p0, p1, p2, p3], presetShift := psh.toNat,
                           outputShift := osh.toNat },
                  armed := false, countdown := 0, windowStart := 0, triggerHead := 0, extra := false,
                  preempted := false, watch := none, runNumber := b.runNumber, completed := 0,
                  missed := 0, skipped := 0, lost := 0 })).modSession x fun z =>
            { z with pendingList := z.pendingList.filter fun e => !e.isAlertOf j })))

/-- JOB_DEFINE's ten checks in order, each refusal changing nothing (R28, R27). -/
def Obligations.JobDefineRefusesInOrder : Prop :=
  ∀ (s : State) (x : Port) (q id ring set : Byte) (args : List Byte) (rest : List Command),
    NextIs x q (0x40 :: id :: ring :: set :: args) rest s → args.length = 14 →
    let refused (st : Status) :=
      exec (.jobDefine x) s = .next (answered x q st 0x40 [id] rest s)
    (32 ≤ id.toNat → refused .badArg) ∧
    (∀ j, id = idByte (n := 32) j →
      (∀ b, s.job j = some b → b.owner ≠ x → refused .notOwner) ∧
      (∀ b, s.job j = some b → b.owner = x → b.state ≠ .defined → refused .wrongState) ∧
      ((∀ b, s.job j = some b → b.owner = x ∧ b.state = .defined) →
        (8 ≤ ring.toNat → refused .notFound) ∧
        (∀ r, ring = idByte (n := 8) r →
          (s.ring r = none → refused .notFound) ∧
          (∀ g, s.ring r = some g →
            (g.orphaned = true → refused .orphaned) ∧
            (g.orphaned = false →
              (16 ≤ set.toNat → refused .notFound) ∧
              (∀ c, set = idByte (n := 16) c →
                (s.coef c = none → refused .notFound) ∧
                (∀ v, s.coef c = some v →
                  (v.phase = .loading → refused .notReady) ∧
                  (v.isOrphaned = true → refused .orphaned) ∧
                  (∀ l0 l1 t0 t1 h0 h1 pr mode p0 p1 p2 p3 psh osh,
                    args = [l0, l1, t0, t1, h0, h1, pr, mode, p0, p1, p2, p3, psh, osh] →
                    v.phase ≠ .loading → v.isOrphaned = false →
                    let length := l0.toNat + 256 * l1.toNat
                    (length = 0 ∨ 4096 < length ∨ g.capacity < length ∨ v.length < length →
                      refused .badArg) ∧
                    (1 ≤ length → length ≤ 4096 → length ≤ g.capacity → length ≤ v.length →
                      (3 < pr.toNat ∨ (mode ≠ RunMode.whole.code ∧ mode ≠ RunMode.segmented.code) ∨
                        16 < psh.toNat ∨ 31 < osh.toNat) →
                      refused .badArg)))))))))

/-- JOB_ARM in every state, and its refusals (R27, R32, R33). -/
def Obligations.JobArmLoadsTheCountdown : Prop :=
  ∀ (s : State) (x : Port) (q id : Byte) (rest : List Command), NextIs x q [0x41, id] rest s →
    let refused (st : Status) :=
      exec (.jobArm x) s = .next (answered x q st 0x41 [id, 0, 0] rest s)
    (32 ≤ id.toNat → refused .badArg) ∧
    (∀ j, id = idByte (n := 32) j →
      (s.job j = none → refused .notFound) ∧
      (∀ b, s.job j = some b →
        (b.owner ≠ x → refused .notOwner) ∧
        (b.owner = x →
          (b.state = .armed → refused .wrongState) ∧
          (b.state ≠ .armed → b.par.stride = 0 → refused .badArg) ∧
          (b.state ≠ .armed → b.par.stride ≠ 0 →
            let n := if 0 < b.par.phase then b.par.phase else b.par.stride
            exec (.jobArm x) s = .next (answered x q .ok 0x41 (id :: leBytes 2 n) rest
              (s.putJob j (some { b with
                state := if b.state = .defined then .armed else b.state,
                armed := true, countdown := n })))))))

/-- JOB_START fires a DEFINED or ARMED job on the newest samples, and its refusals (R27, R38). -/
def Obligations.JobStartFiresOnTheNewestSamples : Prop :=
  ∀ (s : State) (x : Port) (q id : Byte) (rest : List Command), NextIs x q [0x42, id] rest s →
    let refused (st : Status) :=
      exec (.jobStart x) s = .next (answered x q st 0x42 (id :: zeros 12) rest s)
    (32 ≤ id.toNat → refused .badArg) ∧
    (∀ j, id = idByte (n := 32) j →
      (s.job j = none → refused .notFound) ∧
      (∀ b, s.job j = some b →
        (b.owner ≠ x → refused .notOwner) ∧
        (b.owner = x →
          (b.state ≠ .defined → b.state ≠ .armed → refused .wrongState) ∧
          (∀ g, b.state = .defined ∨ b.state = .armed → s.ring b.ring = some g →
            (g.fill < b.par.length → refused .notFilled) ∧
            (b.par.length ≤ g.fill → exec (.jobStart x) s =
              .next (answered x q .ok 0x42
                (id :: leBytes 6 (g.head - b.par.length) ++ leBytes 6 g.head) rest
                ((s.putJob j (some { b with
                  state := .ready, windowStart := g.head - b.par.length, triggerHead := g.head,
                  extra := true, preempted := false })).putClass b.par.priority
                  (s.cls b.par.priority ++ [j]))))))))

/-- JOB_CANCEL in every state, and its refusals (R27, R41 to R43, R66). -/
def Obligations.JobCancelEndsTheFire : Prop :=
  ∀ (s : State) (x : Port) (q id : Byte) (rest : List Command), NextIs x q [0x43, id] rest s →
    let refused (st : Status) :=
      exec (.jobCancel x) s = .next (answered x q st 0x43 [id, 0] rest s)
    (32 ≤ id.toNat → refused .badArg) ∧
    (∀ j, id = idByte (n := 32) j →
      (s.job j = none → refused .notFound) ∧
      (∀ b, s.job j = some b →
        (b.owner ≠ x → refused .notOwner) ∧
        (b.owner = x →
          let off := { b with state := .defined, armed := false, countdown := 0 }
          let leaves (s' : State) :=
            exec (.jobCancel x) s = .next (answered x q .ok 0x43 [id, 0x01] rest s')
          (b.state = .defined ∨ b.state = .armed → leaves (s.putJob j (some off))) ∧
          (b.state = .ready ∨ (∃ p, b.state = .parked p) →
            leaves ((s.putClass b.par.priority
              ((s.cls b.par.priority).filter fun k => k ≠ j)).putJob j (some off))) ∧
          (b.state = .running → leaves ({ s with psu := none }.putJob j (some off))) ∧
          (∀ r, b.state = .held r → exec (.jobCancel x) s =
            .next (answered x q .ok 0x43 [id, 0x06] rest
              (s.putJob j (some { b with armed := false, countdown := 0 })))))))

/-- JOB_DELETE: its fire ends, a held result is discarded, its records go and held ones move in when any
went, its pending entries go, a RESULTS entry goes with the last record, its references are released and
its record becomes EMPTY; its refusals change nothing (R27, R44, R45, R78, R81, R84). -/
def Obligations.JobDeleteRemovesTheJob : Prop :=
  (∀ (s : State) (x : Port) (q : Byte) (j : JobId) (b : Job) (rest : List Command),
    NextIs x q [0x44, idByte j] rest s → s.job j = some b → b.owner = x →
    let kept := (s.session x).results.filter fun r => r.job ≠ j
    let purged := (s.session x).results.length - kept.length
    let ended := match b.state with
      | .ready | .parked _ => s.putClass b.par.priority
          ((s.cls b.par.priority).filter fun k => k ≠ j)
      | .running => { s with psu := none }
      | .held _ => s.modSession x fun z =>
          { z with heldOrder := z.heldOrder.filter fun k => k ≠ j }
      | .defined | .armed => s
    let s1 := ended.modSession x fun z => { z with results := kept }
    let s2 := if purged = 0 then s1 else heldMove x s1
    let s3 := s2.modSession x fun z => { z with
      pendingList := z.pendingList.filter fun e =>
        !(e.names j) && !(z.results.isEmpty && e.isResults) }
    exec (.jobDelete x) s =
      .next (answered x q .ok 0x44 [idByte j, BitVec.ofNat 8 purged] rest
        ((unrefSet b.set (unrefRing b.ring s3)).putJob j none))) ∧
  (∀ (s : State) (x : Port) (q id : Byte) (rest : List Command), NextIs x q [0x44, id] rest s →
    let refused (st : Status) :=
      exec (.jobDelete x) s = .next (answered x q st 0x44 [id, 0] rest s)
    (32 ≤ id.toNat → refused .badArg) ∧
    (∀ j, id = idByte (n := 32) j →
      (s.job j = none → refused .notFound) ∧
      (∀ b, s.job j = some b → b.owner ≠ x → refused .notOwner)))

/-- JOB_WATCH SET and CLEAR, and the refusals (R27, R91 to R93). That a refused reply carries 0 in both
flags is the model's reading of R186 (log 17). -/
def Obligations.JobWatchSetsAndClears : Prop :=
  ∀ (s : State) (x : Port) (q id action a0 a1 a2 a3 b0 b1 b2 b3 : Byte) (rest : List Command),
    NextIs x q [0x46, id, action, a0, a1, a2, a3, b0, b1, b2, b3] rest s →
    let low := intOf32 [a0, a1, a2, a3]
    let high := intOf32 [b0, b1, b2, b3]
    let refused (st : Status) :=
      exec (.jobWatch x) s = .next (answered x q st 0x46 [id, 0, 0] rest s)
    (32 ≤ id.toNat → refused .badArg) ∧
    (∀ j, id = idByte (n := 32) j →
      (s.job j = none → refused .notFound) ∧
      (∀ b, s.job j = some b →
        (b.owner ≠ x → refused .notOwner) ∧
        (b.owner = x →
          let withdrawn := flagByte ((s.session x).pendingList.any (Entry.isAlertOf j))
          let leaves (w : Option Watch) : Host.Outcome State Fault Refusal := .next (answered x q .ok 0x46 [id, action, withdrawn] rest
            ((s.putJob j (some { b with watch := w })).modSession x fun z =>
              { z with pendingList := z.pendingList.filter fun e => !e.isAlertOf j }))
          (action = 0x00 → exec (.jobWatch x) s = leaves none) ∧
          (action = 0x01 → low < high → exec (.jobWatch x) s =
            leaves (some { low := low, high := high, current := .unknown, reported := .unknown })) ∧
          (action = 0x01 → high ≤ low → refused .badArg) ∧
          (action ≠ 0x00 → action ≠ 0x01 → refused .badArg))))

/-! ### Runs and results -/

/-- One addition is exact while the exact sum is in range, else takes the limit it passes, with
saturation seen; the products of a run pair sample windowStart + k of the job's ring with coefficient k of
its set, k ascending from the next product index (R59); the output is the greatest integer not above (a + 2^(n−1)) / 2^n, or a itself for
n of 0, clamped to 32 bits (R63). -/
def Obligations.RunArithmeticRoundsAndClamps : Prop :=
  (∀ (x c : Word16) (run : Run),
      let sum := run.acc + x.toInt * c.toInt
      (addProduct x c run).job = run.job ∧ (addProduct x c run).next = run.next + 1 ∧
      (-2 ^ 47 ≤ sum → sum ≤ 2 ^ 47 - 1 →
        (addProduct x c run).acc = sum ∧ (addProduct x c run).sat = run.sat) ∧
      (2 ^ 47 - 1 < sum → (addProduct x c run).acc = 2 ^ 47 - 1 ∧ (addProduct x c run).sat = true) ∧
      (sum < -2 ^ 47 → (addProduct x c run).acc = -2 ^ 47 ∧ (addProduct x c run).sat = true)) ∧
  (∀ (s : State) (b : Job) (g : Ring) (v : CoefSet) (n : Nat) (run : Run),
      s.ring b.ring = some g → s.coef b.set = some v →
      addProducts s b n run = (List.range n).foldl (fun a i =>
        addProduct (s.readSample (g.base + (b.windowStart + (run.next + i)) % g.capacity))
          (s.readCoef (v.base + (run.next + i))) a) run) ∧
  ((∀ a : Int, roundShift a 0 = a) ∧
    (∀ (a : Int) (n : Nat), 1 ≤ n →
      roundShift a n * 2 ^ n ≤ a + 2 ^ (n - 1) ∧ a + 2 ^ (n - 1) < (roundShift a n + 1) * 2 ^ n) ∧
    (∀ v : Int,
      (-2 ^ 31 ≤ v → v ≤ 2 ^ 31 - 1 → clampValue v = (v, false)) ∧
      (2 ^ 31 - 1 < v → clampValue v = (2 ^ 31 - 1, true)) ∧
      (v < -2 ^ 31 → clampValue v = (-2 ^ 31, true))))

/-- A non-final segment end: the run parks at the head of its class when a higher class is non-empty,
else it goes on (R61, R62). The start step that ends a happening: with the PSU IDLE the head of the
highest non-empty class leaves it and runs, from its preset value shifted and product 0, or from where it
was parked; a busy PSU starts nothing (R56 to R58). -/
def Obligations.SegmentEndParksForAHigherClass : Prop :=
  (∀ s : State,
    (s.psu ≠ none ∨ (∀ c, s.cls c = []) → startStep s = s) ∧
    (∀ c j rest b, s.psu = none → s.cls c = j :: rest → (∀ d, c < d → s.cls d = []) →
      s.job j = some b →
      let runs (acc : Int) (next : Nat) (sat : Bool) :=
        startStep s = { (s.putClass c rest).putJob j (some { b with state := .running }) with
          psu := some { job := j, acc := acc, next := next, sat := sat } }
      (b.state = .ready → runs (b.par.preset * 2 ^ b.par.presetShift) 0 false) ∧
      (∀ p, b.state = .parked p → runs p.acc p.next p.sat))) ∧
  ∀ (s : State) (run : Run) (b : Job),
    s.psu = some run → s.job run.job = some b → b.par.mode = .segmented →
    run.next + 64 < b.par.length →
    let r := addProducts s b 64 run
    ((∀ d, b.par.priority < d → s.cls d = []) →
      exec .segmentEnd s = .next (finish { s with psu := some r })) ∧
    ((∃ d, b.par.priority < d ∧ s.cls d ≠ []) →
      exec .segmentEnd s = .next (finish
        { (s.putJob run.job (some { b with
            state := .parked { acc := r.acc, next := r.next, sat := r.sat },
            preempted := true })).putClass b.par.priority
            (run.job :: s.cls b.par.priority) with psu := none }))

/-- The run end (R63 to R65, R76, R83): the record, the watch, and the record queued with the job at its
return state, or held with the job at the tail of the held order list. -/
def Obligations.RunEndQueuesOrHoldsTheRecord : Prop :=
  ∀ (s : State) (run : Run) (b : Job),
    s.psu = some run → s.job run.job = some b →
    (b.par.mode = .whole ∨ b.par.length ≤ run.next + 64) →
    let a := addProducts s b (b.par.length - run.next) run
    let v := clampValue (roundShift a.acc b.par.outputShift)
    let rec_ : Record :=
      { job := run.job, run := b.runNumber, trigger := BitVec.ofNat 32 b.triggerHead, value := v.1,
        sat := a.sat || v.2, extra := b.extra, preempted := b.preempted }
    let z := s.session b.owner
    let w : Option Watch := match b.watch with
      | some w => some (watchResult run.job v.1 b.runNumber w z.pendingList).1
      | none => none
    let l : List Entry := match b.watch with
      | some w => (watchResult run.job v.1 b.runNumber w z.pendingList).2
      | none => z.pendingList
    let b' := { b with
      runNumber := b.runNumber + 1, completed := bump Config.counterLimit b.completed, watch := w }
    (z.results.length < 32 → exec .runEnd s = .next (finish
      ({ s with psu := none }.putJob run.job
        (some { b' with state := if b.armed then .armed else .defined }) |>.putSession b.owner
        { z with
          results := z.results ++ [rec_]
          pendingList :=
            if z.results.isEmpty ∧ z.resultsNotify ∧ ¬ l.any Entry.isResults then l ++ [Entry.results]
            else l }))) ∧
    (32 ≤ z.results.length → exec .runEnd s = .next (finish
      ({ s with psu := none }.putJob run.job (some { b' with state := .held rec_ })
        |>.putSession b.owner
        { z with heldOrder := z.heldOrder ++ [run.job], pendingList := l })))

/-- The outcome of one classified result (R90, R95 to R97, Table 5-2). -/
def Obligations.WatchOutcomeFollowsTheTable : Prop :=
  ∀ (j : JobId) (v : Int) (n : Word16) (w : Watch) (l : List Entry),
    let c : Sys2Proof.Machine.Class :=
      if v < w.low then .below else if w.high < v then .above else .inside
    (c = w.current → watchResult j v n w l = (w, l)) ∧
    (c ≠ w.current → l.any (Entry.isAlertOf j) = false →
      watchResult j v n w l = ({ w with current := c }, l ++ [.alert j c v n 0])) ∧
    (∀ pre post c' v' n' k, c ≠ w.current → l = pre ++ .alert j c' v' n' k :: post →
      (pre ++ post).any (Entry.isAlertOf j) = false →
      (c = w.reported → watchResult j v n w l = ({ w with current := c }, pre ++ post)) ∧
      (c ≠ w.reported → k ≤ 65535 → watchResult j v n w l =
        ({ w with current := c }, pre ++ .alert j c v n (min (k + 1) 65535) :: post)))

/-- The move of held records (R78): as many as the queue has room for, in run-end order, each job to its
return state. -/
def Obligations.HeldRecordsMoveInRunEndOrder : Prop :=
  ∀ (s : State) (x : Port),
    (s.session x).heldOrder.Nodup →
    (∀ j ∈ (s.session x).heldOrder, ∃ b r, s.job j = some b ∧ b.state = .held r) →
    let k := min (32 - (s.session x).results.length) (s.session x).heldOrder.length
    let moved := (s.session x).heldOrder.take k
    ∃ jobs, heldMove x s =
      { s with jobs := jobs }.modSession x (fun z => { z with
        heldOrder := z.heldOrder.drop k
        results := z.results ++ moved.filterMap fun j => match s.job j with
          | some b => match b.state with | .held r => some r | _ => none
          | none => none }) ∧
      (∀ j b, j ∈ moved → s.job j = some b →
        jobs.look j = some { b with state := if b.armed then .armed else .defined }) ∧
      (∀ j, j ∉ moved → jobs.look j = s.job j)

/-- FETCH removes the oldest records, moves held ones in, withdraws the RESULTS entry when the queue
empties, and replies with what it removed and what is left (R79, R80). -/
def Obligations.FetchRemovesTheOldestRecords : Prop :=
  ∀ (s : State) (x : Port) (q count : Byte) (rest : List Command), NextIs x q [0x50, count] rest s →
    (count = 0 ∨ 16 < count.toNat →
      exec (.fetch x) s = .next (answered x q .badArg 0x50 (zeros 3) rest s)) ∧
    (count ≠ 0 → count.toNat ≤ 16 →
      let old := (s.session x).results
      let taken := old.take count.toNat
      let s1 := s.modSession x fun z => { z with results := old.drop count.toNat }
      let s2 := if taken = [] then s1 else heldMove x s1
      let left := (s2.session x).results
      let s3 := s2.modSession x fun z => { z with
        pendingList := if left.isEmpty then z.pendingList.filter fun e => !e.isResults
          else z.pendingList }
      exec (.fetch x) s = .next (answered x q .ok 0x50
        (BitVec.ofNat 8 taken.length :: taken.flatMap Record.bytes ++
          [BitVec.ofNat 8 left.length, BitVec.ofNat 8 (s2.session x).heldOrder.length]) rest s3))

/-- BYE: the reply is formed, cached and placed, and the session is torn down in the same happening
(R147). -/
def Obligations.ByeRepliesAndTearsDown : Prop :=
  ∀ (s : State) (x : Port) (q : Byte) (rest : List Command), NextIs x q [0x11] rest s →
    let f : Frame := { kind := 0x02, seq := q, payload := [0x00, 0x11] }
    exec (.bye x) s = .next (finish (teardown x (place x f (executed x f rest s))))

/-- A teardown leaves nothing of its session (R149, R23, R46, R118): its jobs are gone from the table, the
queue and the PSU, its rings and sets are freed or, where the other session's jobs name them, orphaned,
orphans that lose their last job are freed, its record is as after reset; bindings and extents follow the
rings and sets, and everything else is untouched. The values of the record's fields that hold no meaning
while the session is CLOSED are the model's choice (log 12, log 15). -/
def Obligations.TeardownLeavesNothingOfTheSession : Prop :=
  ∀ (s : State) (x : Port), SchedulerLaw s → ReferenceLaw s → HeldLaw s →
    let t := teardown x s
    let y := otherPort x
    t.session x = Session.closed ∧ t.session y = s.session y ∧ t.ports = s.ports ∧
    t.spWord = s.spWord ∧ t.sampleMem = s.sampleMem ∧ t.coefMem = s.coefMem ∧ t.pending = s.pending ∧
    t.lastServed = s.lastServed ∧ t.txU = s.txU ∧ t.txS = s.txS ∧ t.baud = s.baud ∧ t.urx = s.urx ∧
    t.lastByteAt = s.lastByteAt ∧ t.ms = s.ms ∧ t.epoch = s.epoch ∧
    (BindingLaw s → BindingLaw t) ∧ (ExtentLaw s → ExtentLaw t) ∧
    (∀ j, t.job j = if ownedBy x s j then none else s.job j) ∧
    (∀ c, t.cls c = (s.cls c).filter fun j => !ownedBy x s j) ∧
    (t.psu = if (match s.psu with | some run => ownedBy x s run.job | none => false) then none
      else s.psu) ∧
    (∀ r, s.ring r = none → t.ring r = none) ∧
    (∀ r g, s.ring r = some g →
      let left := ringJobsOf y r s
      (g.owner = some x → 0 < left →
        t.ring r = some { g with owner := none, orphaned := true, refs := left }) ∧
      (g.owner ≠ some y → left = 0 → t.ring r = none) ∧
      (g.owner = some y ∨ (g.owner = none ∧ 0 < left) → t.ring r = some { g with refs := left })) ∧
    (∀ c, s.coef c = none → t.coef c = none) ∧
    (∀ c v, s.coef c = some v →
      let left := setJobsOf y c s
      (∀ o crc, v.owner = some x → v.phase = .ready o crc → 0 < left →
        t.coef c = some { v with owner := none, phase := .ready true crc, refs := left }) ∧
      (v.owner ≠ some y → left = 0 → t.coef c = none) ∧
      (v.owner = some y ∨ (v.owner = none ∧ 0 < left) → t.coef c = some { v with refs := left }))

/-! ### Reception, acceptance, acknowledgement -/

/-- A byte that ends no frame (R168, Table 10-1): in HUNT only A5h begins a frame; KIND, SEQ and LEN are
taken, then exactly LEN payload bytes, then the first check byte. -/
def Obligations.ReceiverTakesEachByteInItsState : Prop :=
  ∀ (s : State) (p : Port) (b : Byte),
    let s1 := noteByteU p (exchange p s)
    let becomes (rx : Receiver) := exec (.byteDelivered p b) s =
      .next (finish (s1.modPort p fun y => { y with rx := rx }))
    ((s.port p).rx = .hunt → b = 0xA5 → becomes (.header [])) ∧
    ((s.port p).rx = .hunt → b ≠ 0xA5 → becomes .hunt) ∧
    ((s.port p).rx = .header [] → becomes (.header [b])) ∧
    (∀ k, (s.port p).rx = .header [k] → becomes (.header [k, b])) ∧
    (∀ k q, (s.port p).rx = .header [k, q] →
      (b = 0 → becomes (.check { kind := k, seq := q, payload := [] } none)) ∧
      (b ≠ 0 → b.toNat ≤ 248 → becomes (.payload k q b []))) ∧
    (∀ k q n l, (s.port p).rx = .payload k q n l →
      (l.length + 1 < n.toNat → becomes (.payload k q n (l ++ [b]))) ∧
      (n.toNat ≤ l.length + 1 →
        becomes (.check { kind := k, seq := q, payload := l ++ [b] } none))) ∧
    (∀ f, (s.port p).rx = .check f none → becomes (.check f (some b)))

/-- The transmitters ask their arbiters (R174, R177, R180): port U while IDLE, port S at the start of an
exchange without a current frame; with nothing given, port S presents the filler byte. In an exchange
the byte of the current frame counts as sent (R175); an exchange opens the select window, and one whose
start was not commanded asks first (log 7). SDO is not driven while no window is open and presents the
byte chosen otherwise (R175, R177); a byte that SSEL cut short, of the frame or filler, is presented again
in the next window (R175); ATTN is high exactly while a reply waits, a byte of the current frame
is unsent or the notice unit offers a notice (R178, R156). -/
def Obligations.TransmittersAskAndPortSExchanges : Prop :=
  (∀ s : State,
      (∀ o, s.txS.current = some o → o.position < o.frame.size →
        exchangeS s = { s with txS :=
          { selected := true, current := some { o with position := o.position + 1 },
            filler := false } }) ∧
      (s.txS.current = none → s.txS.filler = true →
        exchangeS s = { s with txS := { selected := true, current := none, filler := false } }) ∧
      (∀ f s', s.txS.current = none → s.txS.filler = false → arbiter .s s = (some f, s') →
        exchangeS s = { s' with txS :=
          { selected := true, current := some { frame := f, position := 1 }, filler := false } }) ∧
      (∀ s', s.txS.current = none → s.txS.filler = false → arbiter .s s = (none, s') →
        exchangeS s = { s with txS := { selected := true, current := none, filler := false } })) ∧
  (∀ s : State,
      (s.txU = none → exec (.transmitArbiterChoice .u) s = .next
        { (arbiter .u (startStep s)).2 with txU := (arbiter .u (startStep s)).1 }) ∧
      (∀ f s', s.txS.current = none → s.txS.filler = false → arbiter .s s = (some f, s') →
        exec (.transmitArbiterChoice .s) s = .next (finish { s' with txS :=
          { selected := true, current := some { frame := f, position := 0 }, filler := false } })) ∧
      (∀ s', s.txS.current = none → s.txS.filler = false → arbiter .s s = (none, s') →
        exec (.transmitArbiterChoice .s) s = .next (finish
          { s with txS := { selected := true, current := none, filler := true } })) ∧
      ((∃ o, s.txS.current = some o ∧ o.position < o.frame.size) ∨
          (s.txS.current = none ∧ s.txS.filler = true) →
        exec (.transmitArbiterChoice .s) s =
          .next (finish { s with txS := { s.txS with selected := true } }))) ∧
  (∀ (s : State) (b : Byte), s.txS.selected = true → sdoByte s = some b →
      sdoByte (deselect s) = none ∧ sdoByte (startExchange (deselect s)) = some b) ∧
  (∀ s : State,
      (s.txS.selected = false → sdoByte s = none) ∧
      (∀ o, s.txS.selected = true → s.txS.current = some o →
        sdoByte s = o.frame.bytes[o.position]?) ∧
      (s.txS.selected = true → s.txS.current = none → s.txS.filler = true → sdoByte s = some 0x00)) ∧
  (∀ s : State, attn s = true ↔
      (s.port .s).fifo ≠ [] ∨ (∃ o, s.txS.current = some o ∧ o.position < o.frame.payload.length + 6) ∨
      ((s.session .s).isOpen = true ∧
        ((∃ n ∈ (s.session .s).inFlight, n.marked = true) ∨
          ((s.session .s).pendingList ≠ [] ∧ (s.session .s).inFlight.length < 4))))

/-- A LEN byte above 248 abandons the partial frame and counts one line error (R168, R170); a complete
frame is resolved by its check and its kind (R169, Table 10-2), and a notice timer that an ACK set at or
before the present time expires as soon as that is over (R158, R162). On port S the edge that completes an
ACK may also send the last byte of an outgoing notice: that the ACK and the expiry come before the end of
that notice's transmission, so that it still counts as being sent, is the model's choice, where R165 leaves
either order (log 27). BYTE_DELIVERED of the same byte does the same (log 23). -/
def Obligations.FramesEndByLengthErrorOrResolution : Prop :=
  (∀ (s : State) (p : Port) (k q len : Byte), (s.port p).rx = .header [k, q] → 248 < len.toNat →
      exec (.frameLengthError p len) s = .next (finish (countLineError p (received p s))) ∧
      exec (.byteDelivered p len) s = exec (.frameLengthError p len) s) ∧
  (∀ (s : State) (p : Port) (f : Frame) (lo last : Byte), (s.port p).rx = .check f (some lo) →
      let good := lo.toNat + 256 * last.toNat = (crc16 f.covered).toNat
      let leaves (t : State) := exec (.frameResolution p last) s = .next (finish t)
      (¬ good → leaves (countLineError p (received p s))) ∧
      (good → f.kind ∉ ([0x01, 0x02, 0x03, 0x04] : List Byte) →
        leaves (countLineError p (received p s))) ∧
      (good → f.kind = 0x02 ∨ f.kind = 0x03 → leaves (received p s)) ∧
      (good → f.kind = 0x01 → leaves (arriveCommand p f (received p s))) ∧
      exec (.byteDelivered p last) s = exec (.frameResolution p last) s ∧
      (good → f.kind = 0x04 →
        let s1 := received p s
        let t := finish (arriveAck p f s1)
        let progress := f.payload = [] ∧ (s1.session p).isOpen = true ∧
          ∃ n ∈ (s1.session p).inFlight, n.frame.seq = f.seq
        let marks (l : List Notice) := l.map fun n =>
          if beingSent p n t then n else { n with marked := true, sentAt := none }
        (¬ progress → leaves (arriveAck p f s1)) ∧
        ((t.session p).timer = none → leaves (arriveAck p f s1)) ∧
        (∀ d, (t.session p).timer = some d → t.ms < d → leaves (arriveAck p f s1)) ∧
        (∀ d, progress → (t.session p).timer = some d → d ≤ t.ms →
          exec (.frameResolution p last) s = .next (finish (t.modSession p fun z => { z with
            inFlight := marks z.inFlight
            retry := 1
            timer := match marks z.inFlight with
              | m :: _ => m.sentAt.map (· + z.timeout)
              | [] => none })))))

/-- Sequence acceptance (R136, R137, R141, Table 8-2) of a COMMAND frame other than HELLO. -/
def Obligations.CommandsAreAcceptedInSequence : Prop :=
  ∀ (s : State) (x : Port) (f : Frame), codeOf f.payload ≠ 0x10 →
    let z := s.session x
    let room := (s.port x).fifo.length < 8
    let answer (g : Frame) := if room then place x g s else s
    (z.isOpen = false →
      arriveCommand x f s = answer (replyFrame f.seq .notOpen (codeOf f.payload) [])) ∧
    (z.isOpen = true →
      (f.seq = z.expected → 4 ≤ z.queue.length →
        arriveCommand x f s = answer (replyFrame f.seq .busy (codeOf f.payload) [])) ∧
      (f.seq = z.expected → z.queue.length < 4 →
        arriveCommand x f s = s.putSession x { z with
          queue := z.queue ++ [{ seq := f.seq, payload := f.payload }]
          expected := z.expected + 1 }) ∧
      (f.seq ≠ z.expected → (∃ c ∈ z.queue, c.seq = f.seq) → arriveCommand x f s = s) ∧
      (∀ pre r post, f.seq ≠ z.expected → (∀ c ∈ z.queue, c.seq ≠ f.seq) →
        z.cache = pre ++ r :: post → (∀ c ∈ pre, c.seq ≠ f.seq) → r.seq = f.seq →
        arriveCommand x f s = answer r) ∧
      (f.seq ≠ z.expected → (∀ c ∈ z.queue, c.seq ≠ f.seq) → (∀ c ∈ z.cache, c.seq ≠ f.seq) →
        arriveCommand x f s =
          answer (replyFrame f.seq .sequence (codeOf f.payload) [z.expected])))

/-- A HELLO at its arrival (R133 to R135): discarded when the FIFO is full, refused in the order of its
checks, or it opens the session, after a teardown when the session is OPEN, and replies. -/
def Obligations.HelloOpensTheSession : Prop :=
  ∀ (s : State) (p : Port) (f : Frame) (lo last : Byte), (s.port p).rx = .check f (some lo) →
    lo.toNat + 256 * last.toNat = (crc16 f.covered).toNat → f.kind = 0x01 →
    codeOf f.payload = 0x10 →
    let s1 := received p s
    let room := (s1.port p).fifo.length < 8
    let refused (st : Status) :=
      exec (.hello p last) s = .next (finish (place p (replyFrame f.seq st 0x10 []) s1))
    (¬ room → exec (.hello p last) s = .next (finish s1)) ∧
    (room → f.payload.length ≠ 4 → refused .badLength) ∧
    (∀ t0 t1 n, f.payload = [0x10, t0, t1, n] → room →
      let t := t0.toNat + 256 * t1.toNat
      (f.seq ≠ 0 → refused .badArg) ∧
      (f.seq = 0 → t ≠ 0 → t % 10 ≠ 0 ∨ 1000 < t → refused .badArg) ∧
      (f.seq = 0 → t % 10 = 0 → t ≤ 1000 → 1 < n.toNat → refused .badArg) ∧
      (f.seq = 0 → t % 10 = 0 → t ≤ 1000 → n.toNat ≤ 1 →
        let timeout := if t = 0 then 100 else t
        let was := (s.session p).isOpen
        let s2 := if was then teardown p s1 else s1
        exec (.hello p last) s = .next (finish (place p
          (replyFrame 0 .ok 0x10 (helloData p timeout (n = 1) was))
          (s2.modSession p fun z => { z with
            isOpen := true
            expected := 1
            timeout := timeout
            resultsNotify := n = 1
            noticeSeq := 0
            retry := 0
            timer := none })))))

/-- An ACK that names a notice in flight takes it and every older one, sets the retry count to 0 and the
timer afresh; any other is ignored (R160, R161, R158). -/
def Obligations.AckIsCumulative : Prop :=
  ∀ (s : State) (x : Port) (f : Frame),
    (∀ pre n post, f.payload = [] → (s.session x).isOpen = true →
      (s.session x).inFlight = pre ++ n :: post → (∀ m ∈ pre, m.frame.seq ≠ f.seq) →
      n.frame.seq = f.seq →
      arriveAck x f s = s.modSession x fun z => { z with
        inFlight := post
        retry := 0
        timer := match post with
          | m :: _ => m.sentAt.map (· + z.timeout)
          | [] => none }) ∧
    (f.payload ≠ [] ∨ (s.session x).isOpen = false ∨
      (∀ m ∈ (s.session x).inFlight, m.frame.seq ≠ f.seq) → arriveAck x f s = s)

/-! ### Links, transmission and time -/

/-- A framing error on port U (R171), a deselect of port S (R175, R176) and more than 5 ms inside a frame
on port U (R172, R181) discard and count a partial frame; in HUNT nothing is counted. The time of URX at
space is measured from its last change to space (R173), which is one count back when the command says so and
port U had URX in view no later than there, and else the present count (log 5). When SSEL rises, the
current frame with its position and a filler byte cut short stay, to be presented again (R175); it rises
only in an open window (log 2). The gap is taken when nothing else is due before its time (log 4). A
transmission on port S that has ended is over before a deselect and a gap (log 7). -/
def Obligations.LinkConditionsDiscardAPartialFrame : Prop :=
  (∀ s : State,
      (∀ counted,
        let since := if counted = true ∧ (match s.urx with
            | .following => s.lastByteAt
            | .atSpace _ seen => seen
            | .broken seen => seen) < s.ms then s.ms - 1 else s.ms
        ((s.port .u).rx ≠ .hunt → exec (.framingError counted) s = .next (finish
          { countLineError .u (s.modPort .u fun y => { y with rx := .hunt }) with
            urx := .atSpace since s.ms })) ∧
        ((s.port .u).rx = .hunt → exec (.framingError counted) s =
          .next (finish { s with urx := .atSpace since s.ms }))) ∧
      (s.txS.selected = false → exec .deselect s = .next s) ∧
      (s.txS.selected = true →
        let e := endS s
        let s1 := { e with txS := { e.txS with selected := false } }
        ((s.port .s).rx ≠ .hunt → exec .deselect s =
          .next (finish (countLineError .s (s1.modPort .s fun y => { y with rx := .hunt })))) ∧
        ((s.port .s).rx = .hunt → exec .deselect s = .next (finish s1)))) ∧
  (∀ s : State, (s.port .u).rx ≠ .hunt →
      let e := endS s
      (s.lastByteAt + 6 ≤ s.ms ∨ ∀ x t, (e.session x).timer = some t → s.lastByteAt + 6 ≤ t) →
      exec .interByteGap s = .next (finish
        (countLineError .u ({ e with ms := max s.ms (s.lastByteAt + 6) }.modPort .u fun y =>
          { y with rx := .hunt }))))

/-- The link reset of port U (R173, R181), when URX has been at space for 10 ms: HUNT without a count,
session U torn down when OPEN, its reply FIFO cleared, a frame being sent left alone; one for each break,
and none while URX is not known at space. It lets the time pass to that moment when nothing else is due
before it (log 4, log 5); a transmission on port S that has ended is over first (log 7). -/
def Obligations.LinkResetTearsDownSessionU : Prop :=
  ∀ s : State,
    (∀ since seen, s.urx = .atSpace since seen →
      let e := endS s
      (since + 10 ≤ s.ms ∨
        ((∀ x t, (e.session x).timer = some t → since + 10 ≤ t) ∧
          (∀ t, gapDue s = some t → since + 10 ≤ t))) →
      let s1 := { e with ms := max s.ms (since + 10) }.modPort .u fun y => { y with rx := .hunt }
      let s2 := if (s.session .u).isOpen then teardown .u s1 else s1
      exec .linkReset s = .next (finish
        { s2.modPort .u (fun y => { y with fifo := [] }) with urx := .broken s1.ms })) ∧
    ((∃ seen, s.urx = .broken seen) ∨ s.urx = .following → exec .linkReset s = .next s)

/-- The end of a transmission (R174, R177, R158): the transmitter holds no frame, and a notice still in
flight without a mark takes the present time as its sent-at, from which the timer is set. Without a
transmission at its end, port S is left alone. -/
def Obligations.TransmissionEndStampsTheNotice : Prop :=
  ∀ (s : State) (f : Frame),
    let stamped (l : List Notice) := l.map fun n =>
      if n.frame.seq = f.seq ∧ n.marked = false then { n with sentAt := some s.ms } else n
    let after (p : Port) (s' : State) :=
      if f.kind = 0x03 then s'.modSession p fun z => { z with
        inFlight := stamped z.inFlight
        timer := match stamped z.inFlight with
          | m :: _ => m.sentAt.map (· + z.timeout)
          | [] => none }
      else s'
    (s.txU = some f → exec (.transmissionEnd .u) s =
      .next (finish (after .u { s with txU := none }))) ∧
    (∀ o, s.txS.current = some o → o.frame = f → f.payload.length + 6 ≤ o.position →
      endS s = after .s { s with txS := { s.txS with current := none, filler := false } } ∧
      exec (.transmissionEnd .s) s = .next (finish (endS s))) ∧
    ((∀ o, s.txS.current = some o → o.position < o.frame.payload.length + 6) → endS s = s)

/-- The expiry of a notice timer (R162, R163): with a retry count of 0 to 2 every notice in flight that is
not being transmitted is marked and the count rises; with 3 the session is lost and its port's FIFO
cleared. It takes place when nothing else is due before its time (log 4); a transmission on port S that has
ended is over first (log 7). -/
def Obligations.TimerExpiryMarksOrLosesTheSession : Prop :=
  ∀ (s : State) (x : Port) (t : Nat),
    let e := endS s
    (e.session x).timer = some t →
    (t ≤ s.ms ∨ ((∀ t', (e.session (otherPort x)).timer = some t' → t ≤ t') ∧
      (∀ t', gapDue s = some t' → t ≤ t'))) →
    let s1 := { e with ms := max s.ms t }
    let marks (l : List Notice) := l.map fun n =>
      if beingSent x n e then n else { n with marked := true, sentAt := none }
    ((s.session x).retry < 3 → exec (.noticeTimerExpiry x) s =
      .next (finish (s1.modSession x fun z => { z with
        inFlight := marks z.inFlight
        retry := z.retry + 1
        timer := match marks z.inFlight with
          | m :: _ => m.sentAt.map (· + z.timeout)
          | [] => none }))) ∧
    (3 ≤ (s.session x).retry → (s.session x).isOpen = true → exec (.noticeTimerExpiry x) s =
      .next (finish ((teardown x s1).modPort x fun y => { y with fifo := [] })))

/-! ### Invariants of every step -/

/-- Every step keeps the laws of the ready queue and the PSU (R53 to R56). -/
def Obligations.StepKeepsTheSchedulerLaw : Prop :=
  ∀ s t : State, SchedulerLaw s → step s = .next t → SchedulerLaw t

/-- Every step keeps the law of the armed flag and the countdown (R26). -/
def Obligations.StepKeepsTheArmedLaw : Prop :=
  ∀ s t : State, ArmedLaw s → step s = .next t → ArmedLaw t

/-- Every step keeps the reference counts, the orphans and the load contexts lawful (R6, R7, R106 to
R108). -/
def Obligations.StepKeepsTheReferenceLaw : Prop :=
  ∀ s t : State, ReferenceLaw s → step s = .next t → ReferenceLaw t

/-- Every step keeps every pinning job's window present in its ring (R2, R5). -/
def Obligations.StepKeepsWindowsPresent : Prop :=
  ∀ s t : State, SchedulerLaw s → ReferenceLaw s → WindowLaw s → step s = .next t → WindowLaw t

/-- Every step keeps channel bindings and rings in agreement (R8). -/
def Obligations.StepKeepsTheBindingLaw : Prop :=
  ∀ s t : State, BindingLaw s → step s = .next t → BindingLaw t

/-- Every step keeps the extents in use and the free lists a partition of each memory (R122). -/
def Obligations.StepKeepsTheExtentLaw : Prop :=
  ∀ s t : State, ExtentLaw s → step s = .next t → ExtentLaw t

/-- Every step keeps a CLOSED session without objects and with empty lists (R131). -/
def Obligations.StepKeepsTheClosedLaw : Prop :=
  ∀ s t : State, ReferenceLaw s → ClosedLaw s → step s = .next t → ClosedLaw t

/-- Every step keeps the laws of the result queues and the held order lists (R74, R75, R77). -/
def Obligations.StepKeepsTheHeldLaw : Prop :=
  ∀ s t : State, SchedulerLaw s → Bounded s → HeldLaw s → step s = .next t → HeldLaw t

/-- Every step keeps every list within its capacity and every bounded count within its limit. -/
def Obligations.StepKeepsEveryListWithinItsCapacity : Prop :=
  ∀ s t : State, Bounded s → step s = .next t → Bounded t

/-- Every step keeps command and notice sequence numbers consecutive (R142, R157), and the notice timers
at the expiry of the oldest notice in flight (R158, R162). -/
def Obligations.StepKeepsSequencesAndTimers : Prop :=
  (∀ s t : State, step s = .next t →
      (SequenceLaw s → SequenceLaw t) ∧ (NoticeSequenceLaw s → NoticeSequenceLaw t)) ∧
  (∀ s t : State, TimerLaw s → step s = .next t → TimerLaw t)

/-- Every step keeps the pending entries distinct (R154) and, with them, the relations between watches and
ALERT entries (R98). -/
def Obligations.StepKeepsEntriesAndWatchesInRelation : Prop :=
  ∀ s t : State, EntriesDistinct s → step s = .next t →
    EntriesDistinct t ∧ (AlertsOwned s → WatchLaw s → AlertsOwned t ∧ WatchLaw t)

/-- Every step leaves nothing that the scheduler or the idle port U could begin (R56, R180). -/
def Obligations.StepLeavesASettledState : Prop :=
  ∀ s t : State, SchedulerLaw s → Quiet s → step s = .next t → Quiet t

/-- Every step keeps both memories in the canonical form, which is the model's own (log 8). -/
def Obligations.StepKeepsTheMemoriesCanonical : Prop :=
  ∀ s t : State, MemoriesCanonical s → step s = .next t → MemoriesCanonical t
end

