-- ==== Sys2Proof/Laws/State.lean ====
section
/-! SUPPORT. One lemma for each field of the state and each named update of it, so that no proof unfolds a
record update; and one for each accessor. -/

namespace Sys2Proof.Machine

/-! ### Tables and pairs -/

@[simp] theorem Table.look_put {α : Type} {n : Nat} (t : Table α n) (i k : Fin n) (v : α) :
    (t.put i v).look k = if k = i then v else t.look k := by
  unfold Table.put Table.look
  by_cases h : k = i
  · subst h; simp
  · have : i.val ≠ k.val := fun e => h (Fin.ext e.symm)
    simp [h, Vector.getElem_set_ne, this]

theorem Table.ext_look {α : Type} {n : Nat} {t t' : Table α n} (h : ∀ i, t.look i = t'.look i) :
    t = t' := by
  apply Vector.ext
  intro i hi
  exact h ⟨i, hi⟩

@[simp] theorem Table.put_put {α : Type} {n : Nat} (t : Table α n) (i : Fin n) (v w : α) :
    (t.put i v).put i w = t.put i w := by
  apply Table.ext_look
  intro k
  by_cases h : k = i <;> simp [h]

theorem Table.put_look {α : Type} {n : Nat} (t : Table α n) (i : Fin n) : t.put i (t.look i) = t := by
  apply Table.ext_look
  intro k
  by_cases h : k = i <;> simp [h]

@[simp] theorem Table.look_replicate {α : Type} {n : Nat} (v : α) (i : Fin n) :
    Table.look (Vector.replicate n v) i = v := by
  simp [Table.look]

@[simp] theorem Pair.look_put {α : Type} (q : Pair α) (x y : Port) (v : α) :
    (q.put x v).look y = if y = x then v else q.look y := by
  cases x <;> cases y <;> rfl

@[simp] theorem Pair.put_put {α : Type} (q : Pair α) (x : Port) (v w : α) :
    (q.put x v).put x w = q.put x w := by
  cases x <;> rfl

theorem Pair.put_look {α : Type} (q : Pair α) (x : Port) : q.put x (q.look x) = q := by
  cases x <;> rfl

namespace State

/-! ### Fields that a named update leaves -/

@[simp] theorem pending_putRing (s : State) (r : RingId) (v : Option Ring) : (s.putRing r v).pending = s.pending := rfl
@[simp] theorem bindings_putRing (s : State) (r : RingId) (v : Option Ring) : (s.putRing r v).bindings = s.bindings := rfl
@[simp] theorem spWord_putRing (s : State) (r : RingId) (v : Option Ring) : (s.putRing r v).spWord = s.spWord := rfl
@[simp] theorem sampleMem_putRing (s : State) (r : RingId) (v : Option Ring) : (s.putRing r v).sampleMem = s.sampleMem := rfl
@[simp] theorem jobs_putRing (s : State) (r : RingId) (v : Option Ring) : (s.putRing r v).jobs = s.jobs := rfl
@[simp] theorem ready_putRing (s : State) (r : RingId) (v : Option Ring) : (s.putRing r v).ready = s.ready := rfl
@[simp] theorem psu_putRing (s : State) (r : RingId) (v : Option Ring) : (s.putRing r v).psu = s.psu := rfl
@[simp] theorem sets_putRing (s : State) (r : RingId) (v : Option Ring) : (s.putRing r v).sets = s.sets := rfl
@[simp] theorem coefMem_putRing (s : State) (r : RingId) (v : Option Ring) : (s.putRing r v).coefMem = s.coefMem := rfl
@[simp] theorem sampleFree_putRing (s : State) (r : RingId) (v : Option Ring) : (s.putRing r v).sampleFree = s.sampleFree := rfl
@[simp] theorem coefFree_putRing (s : State) (r : RingId) (v : Option Ring) : (s.putRing r v).coefFree = s.coefFree := rfl
@[simp] theorem sessions_putRing (s : State) (r : RingId) (v : Option Ring) : (s.putRing r v).sessions = s.sessions := rfl
@[simp] theorem lastServed_putRing (s : State) (r : RingId) (v : Option Ring) : (s.putRing r v).lastServed = s.lastServed := rfl
@[simp] theorem ports_putRing (s : State) (r : RingId) (v : Option Ring) : (s.putRing r v).ports = s.ports := rfl
@[simp] theorem txU_putRing (s : State) (r : RingId) (v : Option Ring) : (s.putRing r v).txU = s.txU := rfl
@[simp] theorem txS_putRing (s : State) (r : RingId) (v : Option Ring) : (s.putRing r v).txS = s.txS := rfl
@[simp] theorem baud_putRing (s : State) (r : RingId) (v : Option Ring) : (s.putRing r v).baud = s.baud := rfl
@[simp] theorem urx_putRing (s : State) (r : RingId) (v : Option Ring) : (s.putRing r v).urx = s.urx := rfl
@[simp] theorem lastByteAt_putRing (s : State) (r : RingId) (v : Option Ring) : (s.putRing r v).lastByteAt = s.lastByteAt := rfl
@[simp] theorem ms_putRing (s : State) (r : RingId) (v : Option Ring) : (s.putRing r v).ms = s.ms := rfl
@[simp] theorem epoch_putRing (s : State) (r : RingId) (v : Option Ring) : (s.putRing r v).epoch = s.epoch := rfl

@[simp] theorem pending_putBinding (s : State) (c : ChannelId) (v : Option RingId) : (s.putBinding c v).pending = s.pending := rfl
@[simp] theorem rings_putBinding (s : State) (c : ChannelId) (v : Option RingId) : (s.putBinding c v).rings = s.rings := rfl
@[simp] theorem spWord_putBinding (s : State) (c : ChannelId) (v : Option RingId) : (s.putBinding c v).spWord = s.spWord := rfl
@[simp] theorem sampleMem_putBinding (s : State) (c : ChannelId) (v : Option RingId) : (s.putBinding c v).sampleMem = s.sampleMem := rfl
@[simp] theorem jobs_putBinding (s : State) (c : ChannelId) (v : Option RingId) : (s.putBinding c v).jobs = s.jobs := rfl
@[simp] theorem ready_putBinding (s : State) (c : ChannelId) (v : Option RingId) : (s.putBinding c v).ready = s.ready := rfl
@[simp] theorem psu_putBinding (s : State) (c : ChannelId) (v : Option RingId) : (s.putBinding c v).psu = s.psu := rfl
@[simp] theorem sets_putBinding (s : State) (c : ChannelId) (v : Option RingId) : (s.putBinding c v).sets = s.sets := rfl
@[simp] theorem coefMem_putBinding (s : State) (c : ChannelId) (v : Option RingId) : (s.putBinding c v).coefMem = s.coefMem := rfl
@[simp] theorem sampleFree_putBinding (s : State) (c : ChannelId) (v : Option RingId) : (s.putBinding c v).sampleFree = s.sampleFree := rfl
@[simp] theorem coefFree_putBinding (s : State) (c : ChannelId) (v : Option RingId) : (s.putBinding c v).coefFree = s.coefFree := rfl
@[simp] theorem sessions_putBinding (s : State) (c : ChannelId) (v : Option RingId) : (s.putBinding c v).sessions = s.sessions := rfl
@[simp] theorem lastServed_putBinding (s : State) (c : ChannelId) (v : Option RingId) : (s.putBinding c v).lastServed = s.lastServed := rfl
@[simp] theorem ports_putBinding (s : State) (c : ChannelId) (v : Option RingId) : (s.putBinding c v).ports = s.ports := rfl
@[simp] theorem txU_putBinding (s : State) (c : ChannelId) (v : Option RingId) : (s.putBinding c v).txU = s.txU := rfl
@[simp] theorem txS_putBinding (s : State) (c : ChannelId) (v : Option RingId) : (s.putBinding c v).txS = s.txS := rfl
@[simp] theorem baud_putBinding (s : State) (c : ChannelId) (v : Option RingId) : (s.putBinding c v).baud = s.baud := rfl
@[simp] theorem urx_putBinding (s : State) (c : ChannelId) (v : Option RingId) : (s.putBinding c v).urx = s.urx := rfl
@[simp] theorem lastByteAt_putBinding (s : State) (c : ChannelId) (v : Option RingId) : (s.putBinding c v).lastByteAt = s.lastByteAt := rfl
@[simp] theorem ms_putBinding (s : State) (c : ChannelId) (v : Option RingId) : (s.putBinding c v).ms = s.ms := rfl
@[simp] theorem epoch_putBinding (s : State) (c : ChannelId) (v : Option RingId) : (s.putBinding c v).epoch = s.epoch := rfl

@[simp] theorem pending_putJob (s : State) (j : JobId) (v : Option Job) : (s.putJob j v).pending = s.pending := rfl
@[simp] theorem rings_putJob (s : State) (j : JobId) (v : Option Job) : (s.putJob j v).rings = s.rings := rfl
@[simp] theorem bindings_putJob (s : State) (j : JobId) (v : Option Job) : (s.putJob j v).bindings = s.bindings := rfl
@[simp] theorem spWord_putJob (s : State) (j : JobId) (v : Option Job) : (s.putJob j v).spWord = s.spWord := rfl
@[simp] theorem sampleMem_putJob (s : State) (j : JobId) (v : Option Job) : (s.putJob j v).sampleMem = s.sampleMem := rfl
@[simp] theorem ready_putJob (s : State) (j : JobId) (v : Option Job) : (s.putJob j v).ready = s.ready := rfl
@[simp] theorem psu_putJob (s : State) (j : JobId) (v : Option Job) : (s.putJob j v).psu = s.psu := rfl
@[simp] theorem sets_putJob (s : State) (j : JobId) (v : Option Job) : (s.putJob j v).sets = s.sets := rfl
@[simp] theorem coefMem_putJob (s : State) (j : JobId) (v : Option Job) : (s.putJob j v).coefMem = s.coefMem := rfl
@[simp] theorem sampleFree_putJob (s : State) (j : JobId) (v : Option Job) : (s.putJob j v).sampleFree = s.sampleFree := rfl
@[simp] theorem coefFree_putJob (s : State) (j : JobId) (v : Option Job) : (s.putJob j v).coefFree = s.coefFree := rfl
@[simp] theorem sessions_putJob (s : State) (j : JobId) (v : Option Job) : (s.putJob j v).sessions = s.sessions := rfl
@[simp] theorem lastServed_putJob (s : State) (j : JobId) (v : Option Job) : (s.putJob j v).lastServed = s.lastServed := rfl
@[simp] theorem ports_putJob (s : State) (j : JobId) (v : Option Job) : (s.putJob j v).ports = s.ports := rfl
@[simp] theorem txU_putJob (s : State) (j : JobId) (v : Option Job) : (s.putJob j v).txU = s.txU := rfl
@[simp] theorem txS_putJob (s : State) (j : JobId) (v : Option Job) : (s.putJob j v).txS = s.txS := rfl
@[simp] theorem baud_putJob (s : State) (j : JobId) (v : Option Job) : (s.putJob j v).baud = s.baud := rfl
@[simp] theorem urx_putJob (s : State) (j : JobId) (v : Option Job) : (s.putJob j v).urx = s.urx := rfl
@[simp] theorem lastByteAt_putJob (s : State) (j : JobId) (v : Option Job) : (s.putJob j v).lastByteAt = s.lastByteAt := rfl
@[simp] theorem ms_putJob (s : State) (j : JobId) (v : Option Job) : (s.putJob j v).ms = s.ms := rfl
@[simp] theorem epoch_putJob (s : State) (j : JobId) (v : Option Job) : (s.putJob j v).epoch = s.epoch := rfl

@[simp] theorem pending_putClass (s : State) (c : ClassId) (v : List JobId) : (s.putClass c v).pending = s.pending := rfl
@[simp] theorem rings_putClass (s : State) (c : ClassId) (v : List JobId) : (s.putClass c v).rings = s.rings := rfl
@[simp] theorem bindings_putClass (s : State) (c : ClassId) (v : List JobId) : (s.putClass c v).bindings = s.bindings := rfl
@[simp] theorem spWord_putClass (s : State) (c : ClassId) (v : List JobId) : (s.putClass c v).spWord = s.spWord := rfl
@[simp] theorem sampleMem_putClass (s : State) (c : ClassId) (v : List JobId) : (s.putClass c v).sampleMem = s.sampleMem := rfl
@[simp] theorem jobs_putClass (s : State) (c : ClassId) (v : List JobId) : (s.putClass c v).jobs = s.jobs := rfl
@[simp] theorem psu_putClass (s : State) (c : ClassId) (v : List JobId) : (s.putClass c v).psu = s.psu := rfl
@[simp] theorem sets_putClass (s : State) (c : ClassId) (v : List JobId) : (s.putClass c v).sets = s.sets := rfl
@[simp] theorem coefMem_putClass (s : State) (c : ClassId) (v : List JobId) : (s.putClass c v).coefMem = s.coefMem := rfl
@[simp] theorem sampleFree_putClass (s : State) (c : ClassId) (v : List JobId) : (s.putClass c v).sampleFree = s.sampleFree := rfl
@[simp] theorem coefFree_putClass (s : State) (c : ClassId) (v : List JobId) : (s.putClass c v).coefFree = s.coefFree := rfl
@[simp] theorem sessions_putClass (s : State) (c : ClassId) (v : List JobId) : (s.putClass c v).sessions = s.sessions := rfl
@[simp] theorem lastServed_putClass (s : State) (c : ClassId) (v : List JobId) : (s.putClass c v).lastServed = s.lastServed := rfl
@[simp] theorem ports_putClass (s : State) (c : ClassId) (v : List JobId) : (s.putClass c v).ports = s.ports := rfl
@[simp] theorem txU_putClass (s : State) (c : ClassId) (v : List JobId) : (s.putClass c v).txU = s.txU := rfl
@[simp] theorem txS_putClass (s : State) (c : ClassId) (v : List JobId) : (s.putClass c v).txS = s.txS := rfl
@[simp] theorem baud_putClass (s : State) (c : ClassId) (v : List JobId) : (s.putClass c v).baud = s.baud := rfl
@[simp] theorem urx_putClass (s : State) (c : ClassId) (v : List JobId) : (s.putClass c v).urx = s.urx := rfl
@[simp] theorem lastByteAt_putClass (s : State) (c : ClassId) (v : List JobId) : (s.putClass c v).lastByteAt = s.lastByteAt := rfl
@[simp] theorem ms_putClass (s : State) (c : ClassId) (v : List JobId) : (s.putClass c v).ms = s.ms := rfl
@[simp] theorem epoch_putClass (s : State) (c : ClassId) (v : List JobId) : (s.putClass c v).epoch = s.epoch := rfl

@[simp] theorem pending_putCoef (s : State) (c : SetId) (v : Option CoefSet) : (s.putCoef c v).pending = s.pending := rfl
@[simp] theorem rings_putCoef (s : State) (c : SetId) (v : Option CoefSet) : (s.putCoef c v).rings = s.rings := rfl
@[simp] theorem bindings_putCoef (s : State) (c : SetId) (v : Option CoefSet) : (s.putCoef c v).bindings = s.bindings := rfl
@[simp] theorem spWord_putCoef (s : State) (c : SetId) (v : Option CoefSet) : (s.putCoef c v).spWord = s.spWord := rfl
@[simp] theorem sampleMem_putCoef (s : State) (c : SetId) (v : Option CoefSet) : (s.putCoef c v).sampleMem = s.sampleMem := rfl
@[simp] theorem jobs_putCoef (s : State) (c : SetId) (v : Option CoefSet) : (s.putCoef c v).jobs = s.jobs := rfl
@[simp] theorem ready_putCoef (s : State) (c : SetId) (v : Option CoefSet) : (s.putCoef c v).ready = s.ready := rfl
@[simp] theorem psu_putCoef (s : State) (c : SetId) (v : Option CoefSet) : (s.putCoef c v).psu = s.psu := rfl
@[simp] theorem coefMem_putCoef (s : State) (c : SetId) (v : Option CoefSet) : (s.putCoef c v).coefMem = s.coefMem := rfl
@[simp] theorem sampleFree_putCoef (s : State) (c : SetId) (v : Option CoefSet) : (s.putCoef c v).sampleFree = s.sampleFree := rfl
@[simp] theorem coefFree_putCoef (s : State) (c : SetId) (v : Option CoefSet) : (s.putCoef c v).coefFree = s.coefFree := rfl
@[simp] theorem sessions_putCoef (s : State) (c : SetId) (v : Option CoefSet) : (s.putCoef c v).sessions = s.sessions := rfl
@[simp] theorem lastServed_putCoef (s : State) (c : SetId) (v : Option CoefSet) : (s.putCoef c v).lastServed = s.lastServed := rfl
@[simp] theorem ports_putCoef (s : State) (c : SetId) (v : Option CoefSet) : (s.putCoef c v).ports = s.ports := rfl
@[simp] theorem txU_putCoef (s : State) (c : SetId) (v : Option CoefSet) : (s.putCoef c v).txU = s.txU := rfl
@[simp] theorem txS_putCoef (s : State) (c : SetId) (v : Option CoefSet) : (s.putCoef c v).txS = s.txS := rfl
@[simp] theorem baud_putCoef (s : State) (c : SetId) (v : Option CoefSet) : (s.putCoef c v).baud = s.baud := rfl
@[simp] theorem urx_putCoef (s : State) (c : SetId) (v : Option CoefSet) : (s.putCoef c v).urx = s.urx := rfl
@[simp] theorem lastByteAt_putCoef (s : State) (c : SetId) (v : Option CoefSet) : (s.putCoef c v).lastByteAt = s.lastByteAt := rfl
@[simp] theorem ms_putCoef (s : State) (c : SetId) (v : Option CoefSet) : (s.putCoef c v).ms = s.ms := rfl
@[simp] theorem epoch_putCoef (s : State) (c : SetId) (v : Option CoefSet) : (s.putCoef c v).epoch = s.epoch := rfl

@[simp] theorem pending_putSession (s : State) (x : Port) (v : Session) : (s.putSession x v).pending = s.pending := rfl
@[simp] theorem rings_putSession (s : State) (x : Port) (v : Session) : (s.putSession x v).rings = s.rings := rfl
@[simp] theorem bindings_putSession (s : State) (x : Port) (v : Session) : (s.putSession x v).bindings = s.bindings := rfl
@[simp] theorem spWord_putSession (s : State) (x : Port) (v : Session) : (s.putSession x v).spWord = s.spWord := rfl
@[simp] theorem sampleMem_putSession (s : State) (x : Port) (v : Session) : (s.putSession x v).sampleMem = s.sampleMem := rfl
@[simp] theorem jobs_putSession (s : State) (x : Port) (v : Session) : (s.putSession x v).jobs = s.jobs := rfl
@[simp] theorem ready_putSession (s : State) (x : Port) (v : Session) : (s.putSession x v).ready = s.ready := rfl
@[simp] theorem psu_putSession (s : State) (x : Port) (v : Session) : (s.putSession x v).psu = s.psu := rfl
@[simp] theorem sets_putSession (s : State) (x : Port) (v : Session) : (s.putSession x v).sets = s.sets := rfl
@[simp] theorem coefMem_putSession (s : State) (x : Port) (v : Session) : (s.putSession x v).coefMem = s.coefMem := rfl
@[simp] theorem sampleFree_putSession (s : State) (x : Port) (v : Session) : (s.putSession x v).sampleFree = s.sampleFree := rfl
@[simp] theorem coefFree_putSession (s : State) (x : Port) (v : Session) : (s.putSession x v).coefFree = s.coefFree := rfl
@[simp] theorem lastServed_putSession (s : State) (x : Port) (v : Session) : (s.putSession x v).lastServed = s.lastServed := rfl
@[simp] theorem ports_putSession (s : State) (x : Port) (v : Session) : (s.putSession x v).ports = s.ports := rfl
@[simp] theorem txU_putSession (s : State) (x : Port) (v : Session) : (s.putSession x v).txU = s.txU := rfl
@[simp] theorem txS_putSession (s : State) (x : Port) (v : Session) : (s.putSession x v).txS = s.txS := rfl
@[simp] theorem baud_putSession (s : State) (x : Port) (v : Session) : (s.putSession x v).baud = s.baud := rfl
@[simp] theorem urx_putSession (s : State) (x : Port) (v : Session) : (s.putSession x v).urx = s.urx := rfl
@[simp] theorem lastByteAt_putSession (s : State) (x : Port) (v : Session) : (s.putSession x v).lastByteAt = s.lastByteAt := rfl
@[simp] theorem ms_putSession (s : State) (x : Port) (v : Session) : (s.putSession x v).ms = s.ms := rfl
@[simp] theorem epoch_putSession (s : State) (x : Port) (v : Session) : (s.putSession x v).epoch = s.epoch := rfl

@[simp] theorem pending_putPort (s : State) (p : Port) (v : PortState) : (s.putPort p v).pending = s.pending := rfl
@[simp] theorem rings_putPort (s : State) (p : Port) (v : PortState) : (s.putPort p v).rings = s.rings := rfl
@[simp] theorem bindings_putPort (s : State) (p : Port) (v : PortState) : (s.putPort p v).bindings = s.bindings := rfl
@[simp] theorem spWord_putPort (s : State) (p : Port) (v : PortState) : (s.putPort p v).spWord = s.spWord := rfl
@[simp] theorem sampleMem_putPort (s : State) (p : Port) (v : PortState) : (s.putPort p v).sampleMem = s.sampleMem := rfl
@[simp] theorem jobs_putPort (s : State) (p : Port) (v : PortState) : (s.putPort p v).jobs = s.jobs := rfl
@[simp] theorem ready_putPort (s : State) (p : Port) (v : PortState) : (s.putPort p v).ready = s.ready := rfl
@[simp] theorem psu_putPort (s : State) (p : Port) (v : PortState) : (s.putPort p v).psu = s.psu := rfl
@[simp] theorem sets_putPort (s : State) (p : Port) (v : PortState) : (s.putPort p v).sets = s.sets := rfl
@[simp] theorem coefMem_putPort (s : State) (p : Port) (v : PortState) : (s.putPort p v).coefMem = s.coefMem := rfl
@[simp] theorem sampleFree_putPort (s : State) (p : Port) (v : PortState) : (s.putPort p v).sampleFree = s.sampleFree := rfl
@[simp] theorem coefFree_putPort (s : State) (p : Port) (v : PortState) : (s.putPort p v).coefFree = s.coefFree := rfl
@[simp] theorem sessions_putPort (s : State) (p : Port) (v : PortState) : (s.putPort p v).sessions = s.sessions := rfl
@[simp] theorem lastServed_putPort (s : State) (p : Port) (v : PortState) : (s.putPort p v).lastServed = s.lastServed := rfl
@[simp] theorem txU_putPort (s : State) (p : Port) (v : PortState) : (s.putPort p v).txU = s.txU := rfl
@[simp] theorem txS_putPort (s : State) (p : Port) (v : PortState) : (s.putPort p v).txS = s.txS := rfl
@[simp] theorem baud_putPort (s : State) (p : Port) (v : PortState) : (s.putPort p v).baud = s.baud := rfl
@[simp] theorem urx_putPort (s : State) (p : Port) (v : PortState) : (s.putPort p v).urx = s.urx := rfl
@[simp] theorem lastByteAt_putPort (s : State) (p : Port) (v : PortState) : (s.putPort p v).lastByteAt = s.lastByteAt := rfl
@[simp] theorem ms_putPort (s : State) (p : Port) (v : PortState) : (s.putPort p v).ms = s.ms := rfl
@[simp] theorem epoch_putPort (s : State) (p : Port) (v : PortState) : (s.putPort p v).epoch = s.epoch := rfl

@[simp] theorem pending_modSession (s : State) (x : Port) (f : Session → Session) : (s.modSession x f).pending = s.pending := rfl
@[simp] theorem rings_modSession (s : State) (x : Port) (f : Session → Session) : (s.modSession x f).rings = s.rings := rfl
@[simp] theorem bindings_modSession (s : State) (x : Port) (f : Session → Session) : (s.modSession x f).bindings = s.bindings := rfl
@[simp] theorem spWord_modSession (s : State) (x : Port) (f : Session → Session) : (s.modSession x f).spWord = s.spWord := rfl
@[simp] theorem sampleMem_modSession (s : State) (x : Port) (f : Session → Session) : (s.modSession x f).sampleMem = s.sampleMem := rfl
@[simp] theorem jobs_modSession (s : State) (x : Port) (f : Session → Session) : (s.modSession x f).jobs = s.jobs := rfl
@[simp] theorem ready_modSession (s : State) (x : Port) (f : Session → Session) : (s.modSession x f).ready = s.ready := rfl
@[simp] theorem psu_modSession (s : State) (x : Port) (f : Session → Session) : (s.modSession x f).psu = s.psu := rfl
@[simp] theorem sets_modSession (s : State) (x : Port) (f : Session → Session) : (s.modSession x f).sets = s.sets := rfl
@[simp] theorem coefMem_modSession (s : State) (x : Port) (f : Session → Session) : (s.modSession x f).coefMem = s.coefMem := rfl
@[simp] theorem sampleFree_modSession (s : State) (x : Port) (f : Session → Session) : (s.modSession x f).sampleFree = s.sampleFree := rfl
@[simp] theorem coefFree_modSession (s : State) (x : Port) (f : Session → Session) : (s.modSession x f).coefFree = s.coefFree := rfl
@[simp] theorem lastServed_modSession (s : State) (x : Port) (f : Session → Session) : (s.modSession x f).lastServed = s.lastServed := rfl
@[simp] theorem ports_modSession (s : State) (x : Port) (f : Session → Session) : (s.modSession x f).ports = s.ports := rfl
@[simp] theorem txU_modSession (s : State) (x : Port) (f : Session → Session) : (s.modSession x f).txU = s.txU := rfl
@[simp] theorem txS_modSession (s : State) (x : Port) (f : Session → Session) : (s.modSession x f).txS = s.txS := rfl
@[simp] theorem baud_modSession (s : State) (x : Port) (f : Session → Session) : (s.modSession x f).baud = s.baud := rfl
@[simp] theorem urx_modSession (s : State) (x : Port) (f : Session → Session) : (s.modSession x f).urx = s.urx := rfl
@[simp] theorem lastByteAt_modSession (s : State) (x : Port) (f : Session → Session) : (s.modSession x f).lastByteAt = s.lastByteAt := rfl
@[simp] theorem ms_modSession (s : State) (x : Port) (f : Session → Session) : (s.modSession x f).ms = s.ms := rfl
@[simp] theorem epoch_modSession (s : State) (x : Port) (f : Session → Session) : (s.modSession x f).epoch = s.epoch := rfl

@[simp] theorem pending_modPort (s : State) (p : Port) (f : PortState → PortState) : (s.modPort p f).pending = s.pending := rfl
@[simp] theorem rings_modPort (s : State) (p : Port) (f : PortState → PortState) : (s.modPort p f).rings = s.rings := rfl
@[simp] theorem bindings_modPort (s : State) (p : Port) (f : PortState → PortState) : (s.modPort p f).bindings = s.bindings := rfl
@[simp] theorem spWord_modPort (s : State) (p : Port) (f : PortState → PortState) : (s.modPort p f).spWord = s.spWord := rfl
@[simp] theorem sampleMem_modPort (s : State) (p : Port) (f : PortState → PortState) : (s.modPort p f).sampleMem = s.sampleMem := rfl
@[simp] theorem jobs_modPort (s : State) (p : Port) (f : PortState → PortState) : (s.modPort p f).jobs = s.jobs := rfl
@[simp] theorem ready_modPort (s : State) (p : Port) (f : PortState → PortState) : (s.modPort p f).ready = s.ready := rfl
@[simp] theorem psu_modPort (s : State) (p : Port) (f : PortState → PortState) : (s.modPort p f).psu = s.psu := rfl
@[simp] theorem sets_modPort (s : State) (p : Port) (f : PortState → PortState) : (s.modPort p f).sets = s.sets := rfl
@[simp] theorem coefMem_modPort (s : State) (p : Port) (f : PortState → PortState) : (s.modPort p f).coefMem = s.coefMem := rfl
@[simp] theorem sampleFree_modPort (s : State) (p : Port) (f : PortState → PortState) : (s.modPort p f).sampleFree = s.sampleFree := rfl
@[simp] theorem coefFree_modPort (s : State) (p : Port) (f : PortState → PortState) : (s.modPort p f).coefFree = s.coefFree := rfl
@[simp] theorem sessions_modPort (s : State) (p : Port) (f : PortState → PortState) : (s.modPort p f).sessions = s.sessions := rfl
@[simp] theorem lastServed_modPort (s : State) (p : Port) (f : PortState → PortState) : (s.modPort p f).lastServed = s.lastServed := rfl
@[simp] theorem txU_modPort (s : State) (p : Port) (f : PortState → PortState) : (s.modPort p f).txU = s.txU := rfl
@[simp] theorem txS_modPort (s : State) (p : Port) (f : PortState → PortState) : (s.modPort p f).txS = s.txS := rfl
@[simp] theorem baud_modPort (s : State) (p : Port) (f : PortState → PortState) : (s.modPort p f).baud = s.baud := rfl
@[simp] theorem urx_modPort (s : State) (p : Port) (f : PortState → PortState) : (s.modPort p f).urx = s.urx := rfl
@[simp] theorem lastByteAt_modPort (s : State) (p : Port) (f : PortState → PortState) : (s.modPort p f).lastByteAt = s.lastByteAt := rfl
@[simp] theorem ms_modPort (s : State) (p : Port) (f : PortState → PortState) : (s.modPort p f).ms = s.ms := rfl
@[simp] theorem epoch_modPort (s : State) (p : Port) (f : PortState → PortState) : (s.modPort p f).epoch = s.epoch := rfl

/-! ### Records that an update of another table leaves -/

@[simp] theorem binding_putRing (s : State) (r : RingId) (v : Option Ring) (k : ChannelId) : (s.putRing r v).binding k = s.binding k := rfl
@[simp] theorem job_putRing (s : State) (r : RingId) (v : Option Ring) (k : JobId) : (s.putRing r v).job k = s.job k := rfl
@[simp] theorem cls_putRing (s : State) (r : RingId) (v : Option Ring) (k : ClassId) : (s.putRing r v).cls k = s.cls k := rfl
@[simp] theorem coef_putRing (s : State) (r : RingId) (v : Option Ring) (k : SetId) : (s.putRing r v).coef k = s.coef k := rfl
@[simp] theorem session_putRing (s : State) (r : RingId) (v : Option Ring) (k : Port) : (s.putRing r v).session k = s.session k := rfl
@[simp] theorem port_putRing (s : State) (r : RingId) (v : Option Ring) (k : Port) : (s.putRing r v).port k = s.port k := rfl

@[simp] theorem ring_putBinding (s : State) (c : ChannelId) (v : Option RingId) (k : RingId) : (s.putBinding c v).ring k = s.ring k := rfl
@[simp] theorem job_putBinding (s : State) (c : ChannelId) (v : Option RingId) (k : JobId) : (s.putBinding c v).job k = s.job k := rfl
@[simp] theorem cls_putBinding (s : State) (c : ChannelId) (v : Option RingId) (k : ClassId) : (s.putBinding c v).cls k = s.cls k := rfl
@[simp] theorem coef_putBinding (s : State) (c : ChannelId) (v : Option RingId) (k : SetId) : (s.putBinding c v).coef k = s.coef k := rfl
@[simp] theorem session_putBinding (s : State) (c : ChannelId) (v : Option RingId) (k : Port) : (s.putBinding c v).session k = s.session k := rfl
@[simp] theorem port_putBinding (s : State) (c : ChannelId) (v : Option RingId) (k : Port) : (s.putBinding c v).port k = s.port k := rfl

@[simp] theorem ring_putJob (s : State) (j : JobId) (v : Option Job) (k : RingId) : (s.putJob j v).ring k = s.ring k := rfl
@[simp] theorem binding_putJob (s : State) (j : JobId) (v : Option Job) (k : ChannelId) : (s.putJob j v).binding k = s.binding k := rfl
@[simp] theorem cls_putJob (s : State) (j : JobId) (v : Option Job) (k : ClassId) : (s.putJob j v).cls k = s.cls k := rfl
@[simp] theorem coef_putJob (s : State) (j : JobId) (v : Option Job) (k : SetId) : (s.putJob j v).coef k = s.coef k := rfl
@[simp] theorem session_putJob (s : State) (j : JobId) (v : Option Job) (k : Port) : (s.putJob j v).session k = s.session k := rfl
@[simp] theorem port_putJob (s : State) (j : JobId) (v : Option Job) (k : Port) : (s.putJob j v).port k = s.port k := rfl

@[simp] theorem ring_putClass (s : State) (c : ClassId) (v : List JobId) (k : RingId) : (s.putClass c v).ring k = s.ring k := rfl
@[simp] theorem binding_putClass (s : State) (c : ClassId) (v : List JobId) (k : ChannelId) : (s.putClass c v).binding k = s.binding k := rfl
@[simp] theorem job_putClass (s : State) (c : ClassId) (v : List JobId) (k : JobId) : (s.putClass c v).job k = s.job k := rfl
@[simp] theorem coef_putClass (s : State) (c : ClassId) (v : List JobId) (k : SetId) : (s.putClass c v).coef k = s.coef k := rfl
@[simp] theorem session_putClass (s : State) (c : ClassId) (v : List JobId) (k : Port) : (s.putClass c v).session k = s.session k := rfl
@[simp] theorem port_putClass (s : State) (c : ClassId) (v : List JobId) (k : Port) : (s.putClass c v).port k = s.port k := rfl

@[simp] theorem ring_putCoef (s : State) (c : SetId) (v : Option CoefSet) (k : RingId) : (s.putCoef c v).ring k = s.ring k := rfl
@[simp] theorem binding_putCoef (s : State) (c : SetId) (v : Option CoefSet) (k : ChannelId) : (s.putCoef c v).binding k = s.binding k := rfl
@[simp] theorem job_putCoef (s : State) (c : SetId) (v : Option CoefSet) (k : JobId) : (s.putCoef c v).job k = s.job k := rfl
@[simp] theorem cls_putCoef (s : State) (c : SetId) (v : Option CoefSet) (k : ClassId) : (s.putCoef c v).cls k = s.cls k := rfl
@[simp] theorem session_putCoef (s : State) (c : SetId) (v : Option CoefSet) (k : Port) : (s.putCoef c v).session k = s.session k := rfl
@[simp] theorem port_putCoef (s : State) (c : SetId) (v : Option CoefSet) (k : Port) : (s.putCoef c v).port k = s.port k := rfl

@[simp] theorem ring_putSession (s : State) (x : Port) (v : Session) (k : RingId) : (s.putSession x v).ring k = s.ring k := rfl
@[simp] theorem binding_putSession (s : State) (x : Port) (v : Session) (k : ChannelId) : (s.putSession x v).binding k = s.binding k := rfl
@[simp] theorem job_putSession (s : State) (x : Port) (v : Session) (k : JobId) : (s.putSession x v).job k = s.job k := rfl
@[simp] theorem cls_putSession (s : State) (x : Port) (v : Session) (k : ClassId) : (s.putSession x v).cls k = s.cls k := rfl
@[simp] theorem coef_putSession (s : State) (x : Port) (v : Session) (k : SetId) : (s.putSession x v).coef k = s.coef k := rfl
@[simp] theorem port_putSession (s : State) (x : Port) (v : Session) (k : Port) : (s.putSession x v).port k = s.port k := rfl

@[simp] theorem ring_putPort (s : State) (p : Port) (v : PortState) (k : RingId) : (s.putPort p v).ring k = s.ring k := rfl
@[simp] theorem binding_putPort (s : State) (p : Port) (v : PortState) (k : ChannelId) : (s.putPort p v).binding k = s.binding k := rfl
@[simp] theorem job_putPort (s : State) (p : Port) (v : PortState) (k : JobId) : (s.putPort p v).job k = s.job k := rfl
@[simp] theorem cls_putPort (s : State) (p : Port) (v : PortState) (k : ClassId) : (s.putPort p v).cls k = s.cls k := rfl
@[simp] theorem coef_putPort (s : State) (p : Port) (v : PortState) (k : SetId) : (s.putPort p v).coef k = s.coef k := rfl
@[simp] theorem session_putPort (s : State) (p : Port) (v : PortState) (k : Port) : (s.putPort p v).session k = s.session k := rfl

@[simp] theorem ring_modSession (s : State) (x : Port) (f : Session → Session) (k : RingId) : (s.modSession x f).ring k = s.ring k := rfl
@[simp] theorem binding_modSession (s : State) (x : Port) (f : Session → Session) (k : ChannelId) : (s.modSession x f).binding k = s.binding k := rfl
@[simp] theorem job_modSession (s : State) (x : Port) (f : Session → Session) (k : JobId) : (s.modSession x f).job k = s.job k := rfl
@[simp] theorem cls_modSession (s : State) (x : Port) (f : Session → Session) (k : ClassId) : (s.modSession x f).cls k = s.cls k := rfl
@[simp] theorem coef_modSession (s : State) (x : Port) (f : Session → Session) (k : SetId) : (s.modSession x f).coef k = s.coef k := rfl
@[simp] theorem port_modSession (s : State) (x : Port) (f : Session → Session) (k : Port) : (s.modSession x f).port k = s.port k := rfl

@[simp] theorem ring_modPort (s : State) (p : Port) (f : PortState → PortState) (k : RingId) : (s.modPort p f).ring k = s.ring k := rfl
@[simp] theorem binding_modPort (s : State) (p : Port) (f : PortState → PortState) (k : ChannelId) : (s.modPort p f).binding k = s.binding k := rfl
@[simp] theorem job_modPort (s : State) (p : Port) (f : PortState → PortState) (k : JobId) : (s.modPort p f).job k = s.job k := rfl
@[simp] theorem cls_modPort (s : State) (p : Port) (f : PortState → PortState) (k : ClassId) : (s.modPort p f).cls k = s.cls k := rfl
@[simp] theorem coef_modPort (s : State) (p : Port) (f : PortState → PortState) (k : SetId) : (s.modPort p f).coef k = s.coef k := rfl
@[simp] theorem session_modPort (s : State) (p : Port) (f : PortState → PortState) (k : Port) : (s.modPort p f).session k = s.session k := rfl

/-! ### The record that is replaced -/

@[simp] theorem ring_putRing (s : State) (r : RingId) (v : Option Ring) (k : RingId) :
    (s.putRing r v).ring k = if k = r then v else s.ring k :=
  Table.look_put _ _ _ _
@[simp] theorem binding_putBinding (s : State) (c : ChannelId) (v : Option RingId) (k : ChannelId) :
    (s.putBinding c v).binding k = if k = c then v else s.binding k :=
  Table.look_put _ _ _ _
@[simp] theorem job_putJob (s : State) (j : JobId) (v : Option Job) (k : JobId) :
    (s.putJob j v).job k = if k = j then v else s.job k :=
  Table.look_put _ _ _ _
@[simp] theorem cls_putClass (s : State) (c : ClassId) (v : List JobId) (k : ClassId) :
    (s.putClass c v).cls k = if k = c then v else s.cls k :=
  Table.look_put _ _ _ _
@[simp] theorem coef_putCoef (s : State) (c : SetId) (v : Option CoefSet) (k : SetId) :
    (s.putCoef c v).coef k = if k = c then v else s.coef k :=
  Table.look_put _ _ _ _
@[simp] theorem session_putSession (s : State) (x : Port) (v : Session) (k : Port) :
    (s.putSession x v).session k = if k = x then v else s.session k :=
  Pair.look_put _ _ _ _
@[simp] theorem session_modSession (s : State) (x : Port) (f : Session → Session) (k : Port) :
    (s.modSession x f).session k = if k = x then f (s.session x) else s.session k :=
  Pair.look_put _ _ _ _
@[simp] theorem port_putPort (s : State) (p : Port) (v : PortState) (k : Port) :
    (s.putPort p v).port k = if k = p then v else s.port k :=
  Pair.look_put _ _ _ _
@[simp] theorem port_modPort (s : State) (p : Port) (f : PortState → PortState) (k : Port) :
    (s.modPort p f).port k = if k = p then f (s.port p) else s.port k :=
  Pair.look_put _ _ _ _

/-! ### Records of a state written out field by field -/

@[simp] theorem ring_mk
    (pd : List Instr) (rg : Table (Option Ring) 8) (bd : Table (Option RingId) 4) (sw : List Bool) (sm : Mem)
    (jb : Table (Option Job) 32) (rd : Table (List JobId) 4) (ps : Option Run)
    (st : Table (Option CoefSet) 16) (cm : Mem) (sf : List Extent) (cf : List Extent)
    (ss : Pair Session) (ls : Port) (po : Pair PortState) (tu : Option Frame)
    (ts : TransmitterS) (ba : Level) (ur : UrxState) (lb : Nat) (m : Nat) (e : Nat) (k : RingId) :
    (State.mk pd rg bd sw sm jb rd ps st cm sf cf ss ls po tu ts ba ur lb m e).ring k =
      Table.look rg k := rfl
@[simp] theorem binding_mk
    (pd : List Instr) (rg : Table (Option Ring) 8) (bd : Table (Option RingId) 4) (sw : List Bool) (sm : Mem)
    (jb : Table (Option Job) 32) (rd : Table (List JobId) 4) (ps : Option Run)
    (st : Table (Option CoefSet) 16) (cm : Mem) (sf : List Extent) (cf : List Extent)
    (ss : Pair Session) (ls : Port) (po : Pair PortState) (tu : Option Frame)
    (ts : TransmitterS) (ba : Level) (ur : UrxState) (lb : Nat) (m : Nat) (e : Nat) (k : ChannelId) :
    (State.mk pd rg bd sw sm jb rd ps st cm sf cf ss ls po tu ts ba ur lb m e).binding k =
      Table.look bd k := rfl
@[simp] theorem job_mk
    (pd : List Instr) (rg : Table (Option Ring) 8) (bd : Table (Option RingId) 4) (sw : List Bool) (sm : Mem)
    (jb : Table (Option Job) 32) (rd : Table (List JobId) 4) (ps : Option Run)
    (st : Table (Option CoefSet) 16) (cm : Mem) (sf : List Extent) (cf : List Extent)
    (ss : Pair Session) (ls : Port) (po : Pair PortState) (tu : Option Frame)
    (ts : TransmitterS) (ba : Level) (ur : UrxState) (lb : Nat) (m : Nat) (e : Nat) (k : JobId) :
    (State.mk pd rg bd sw sm jb rd ps st cm sf cf ss ls po tu ts ba ur lb m e).job k =
      Table.look jb k := rfl
@[simp] theorem cls_mk
    (pd : List Instr) (rg : Table (Option Ring) 8) (bd : Table (Option RingId) 4) (sw : List Bool) (sm : Mem)
    (jb : Table (Option Job) 32) (rd : Table (List JobId) 4) (ps : Option Run)
    (st : Table (Option CoefSet) 16) (cm : Mem) (sf : List Extent) (cf : List Extent)
    (ss : Pair Session) (ls : Port) (po : Pair PortState) (tu : Option Frame)
    (ts : TransmitterS) (ba : Level) (ur : UrxState) (lb : Nat) (m : Nat) (e : Nat) (k : ClassId) :
    (State.mk pd rg bd sw sm jb rd ps st cm sf cf ss ls po tu ts ba ur lb m e).cls k =
      Table.look rd k := rfl
@[simp] theorem coef_mk
    (pd : List Instr) (rg : Table (Option Ring) 8) (bd : Table (Option RingId) 4) (sw : List Bool) (sm : Mem)
    (jb : Table (Option Job) 32) (rd : Table (List JobId) 4) (ps : Option Run)
    (st : Table (Option CoefSet) 16) (cm : Mem) (sf : List Extent) (cf : List Extent)
    (ss : Pair Session) (ls : Port) (po : Pair PortState) (tu : Option Frame)
    (ts : TransmitterS) (ba : Level) (ur : UrxState) (lb : Nat) (m : Nat) (e : Nat) (k : SetId) :
    (State.mk pd rg bd sw sm jb rd ps st cm sf cf ss ls po tu ts ba ur lb m e).coef k =
      Table.look st k := rfl
@[simp] theorem session_mk
    (pd : List Instr) (rg : Table (Option Ring) 8) (bd : Table (Option RingId) 4) (sw : List Bool) (sm : Mem)
    (jb : Table (Option Job) 32) (rd : Table (List JobId) 4) (ps : Option Run)
    (st : Table (Option CoefSet) 16) (cm : Mem) (sf : List Extent) (cf : List Extent)
    (ss : Pair Session) (ls : Port) (po : Pair PortState) (tu : Option Frame)
    (ts : TransmitterS) (ba : Level) (ur : UrxState) (lb : Nat) (m : Nat) (e : Nat) (k : Port) :
    (State.mk pd rg bd sw sm jb rd ps st cm sf cf ss ls po tu ts ba ur lb m e).session k =
      Pair.look ss k := rfl
@[simp] theorem port_mk
    (pd : List Instr) (rg : Table (Option Ring) 8) (bd : Table (Option RingId) 4) (sw : List Bool) (sm : Mem)
    (jb : Table (Option Job) 32) (rd : Table (List JobId) 4) (ps : Option Run)
    (st : Table (Option CoefSet) 16) (cm : Mem) (sf : List Extent) (cf : List Extent)
    (ss : Pair Session) (ls : Port) (po : Pair PortState) (tu : Option Frame)
    (ts : TransmitterS) (ba : Level) (ur : UrxState) (lb : Nat) (m : Nat) (e : Nat) (k : Port) :
    (State.mk pd rg bd sw sm jb rd ps st cm sf cf ss ls po tu ts ba ur lb m e).port k =
      Pair.look po k := rfl

theorem look_rings (s : State) (k : RingId) : s.rings.look k = s.ring k := rfl
theorem look_bindings (s : State) (k : ChannelId) : s.bindings.look k = s.binding k := rfl
theorem look_jobs (s : State) (k : JobId) : s.jobs.look k = s.job k := rfl
theorem look_ready (s : State) (k : ClassId) : s.ready.look k = s.cls k := rfl
theorem look_sets (s : State) (k : SetId) : s.sets.look k = s.coef k := rfl
theorem look_sessions (s : State) (k : Port) : s.sessions.look k = s.session k := rfl
theorem look_ports (s : State) (k : Port) : s.ports.look k = s.port k := rfl

end State

end Sys2Proof.Machine
end

