-- ==== Sys2Proof/Laws/Execution.lean ====
section
/-! SUPPORT. What the execution of a queued command does, said once (08 R143 to R145). -/

namespace Sys2Proof.Machine

theorem leBytes_two (n : Nat) : leBytes 2 n = [BitVec.ofNat 8 n, BitVec.ofNat 8 (n / 256)] := rfl

theorem leNat_pair (a b : Byte) : leNat [a, b] = a.toNat + 256 * b.toNat := by simp [leNat]

/-- The next command of a session that is served (08 R143). -/
theorem nextCommand_of_nextIs {x : Port} {q : Byte} {payload : List Byte} {rest : List Command}
    {s : State} (h : NextIs x q payload rest s) :
    nextCommand x s = some ({ seq := q, payload := payload }, rest) := by
  simp [nextCommand, h.1, h.2]

/-- The reply of an execution, on the state the owning block leaves (08 R145). -/
theorem reply_takeCommand (x : Port) (f : Frame) (s : State) :
    reply x f s = place x f (s.modSession x fun z => { z with cache := cacheReply f z.cache }) := rfl

/-- A block that answers leads to the reply on the state it leaves. -/
theorem runCommand_answer {x : Port} {q code : Byte} {args : List Byte} {rest : List Command}
    {s : State} {act : List Byte → State → Option Answer} {a : Answer}
    (h : NextIs x q (code :: args) rest s) (ha : act args (takeCommand x rest s) = some a) :
    runCommand x code act s = finish (reply x (replyFrame q a.status code a.data) a.state) := by
  simp [runCommand, execute, nextCommand_of_nextIs h, ha]

/-- A block that finds the length wrong leads to BAD_LENGTH on the state it was given. -/
theorem runCommand_badLength {x : Port} {q code : Byte} {args : List Byte} {rest : List Command}
    {s : State} {act : List Byte → State → Option Answer}
    (h : NextIs x q (code :: args) rest s) (ha : act args (takeCommand x rest s) = none) :
    runCommand x code act s =
      finish (reply x (replyFrame q .badLength code []) (takeCommand x rest s)) := by
  simp [runCommand, execute, nextCommand_of_nextIs h, ha]

@[simp] theorem rings_takeCommand (x : Port) (l : List Command) (s : State) :
    (takeCommand x l s).rings = s.rings := rfl
@[simp] theorem ring_takeCommand (x : Port) (l : List Command) (s : State) (r : RingId) :
    (takeCommand x l s).ring r = s.ring r := rfl
@[simp] theorem binding_takeCommand (x : Port) (l : List Command) (s : State) (c : ChannelId) :
    (takeCommand x l s).binding c = s.binding c := rfl
@[simp] theorem job_takeCommand (x : Port) (l : List Command) (s : State) (j : JobId) :
    (takeCommand x l s).job j = s.job j := rfl
@[simp] theorem cls_takeCommand (x : Port) (l : List Command) (s : State) (c : ClassId) :
    (takeCommand x l s).cls c = s.cls c := rfl
@[simp] theorem coef_takeCommand (x : Port) (l : List Command) (s : State) (c : SetId) :
    (takeCommand x l s).coef c = s.coef c := rfl
@[simp] theorem port_takeCommand (x : Port) (l : List Command) (s : State) (p : Port) :
    (takeCommand x l s).port p = s.port p := rfl
@[simp] theorem sampleFree_takeCommand (x : Port) (l : List Command) (s : State) :
    (takeCommand x l s).sampleFree = s.sampleFree := rfl
@[simp] theorem coefFree_takeCommand (x : Port) (l : List Command) (s : State) :
    (takeCommand x l s).coefFree = s.coefFree := rfl
@[simp] theorem pin_takeCommand (x : Port) (l : List Command) (s : State) (r : RingId) :
    pin r (takeCommand x l s) = pin r s := rfl
@[simp] theorem readSample_takeCommand (x : Port) (l : List Command) (s : State) (a : Nat) :
    (takeCommand x l s).readSample a = s.readSample a := rfl
@[simp] theorem readCoef_takeCommand (x : Port) (l : List Command) (s : State) (a : Nat) :
    (takeCommand x l s).readCoef a = s.readCoef a := rfl

theorem session_takeCommand (x y : Port) (l : List Command) (s : State) :
    (takeCommand x l s).session y =
      if y = x then { s.session x with queue := l } else s.session y := by
  unfold takeCommand
  cases x <;> cases y <;> rfl

/-- The frame of a session's record that taking a command leaves: all but its queue. -/
theorem load_takeCommand (x y : Port) (l : List Command) (s : State) :
    ((takeCommand x l s).session y).load = (s.session y).load := by
  rw [session_takeCommand]; split <;> simp_all

/-- Two changes of one session's record are one. -/
theorem modSession_modSession (s : State) (x : Port) (f g : Session → Session) :
    (s.modSession x f).modSession x g = s.modSession x fun z => g (f z) := by
  cases x <;> rfl

/-- A refusal or a query leaves the state it was given. -/
theorem reply_same (x : Port) (q code : Byte) (st : Status) (data : List Byte) (rest : List Command)
    (s : State) :
    finish (reply x (replyFrame q st code data) (takeCommand x rest s)) =
      answered x q st code data rest s := by
  cases x <;> rfl

end Sys2Proof.Machine
end

