-- ==== Sys2Proof/Laws/Extents.lean ====
section
/-! SUPPORT. The extent allocators: first fit (07 R124), the joining of freed extents (07 R125), and the
addresses that both keep covered once. -/

namespace Sys2Proof.Machine

/-- First fit finds nothing when no entry is large enough (R124). -/
theorem allocate_eq_none {n : Nat} {l : List Extent} (h : ∀ e ∈ l, e.size < n) :
    allocate n l = none := by
  induction l with
  | nil => rfl
  | cons e l ih =>
    have h1 := h e (by simp)
    have := ih fun d hd => h d (by simp [hd])
    simp [allocate, this]; omega

/-- First fit takes the low end of the first entry that is large enough (R124). -/
theorem allocate_first (n : Nat) (pre post : List Extent) (e : Extent) (h : ∀ d ∈ pre, d.size < n)
    (he : n ≤ e.size) :
    allocate n (pre ++ e :: post) = some (e.base, pre ++
      if e.size = n then post else { base := e.base + n, size := e.size - n } :: post) := by
  induction pre with
  | nil => simp only [List.nil_append, allocate, he, if_true]; split <;> rfl
  | cons d pre ih =>
    have h1 := h d (by simp)
    have := ih fun c hc => h c (by simp [hc])
    have hd : ¬ n ≤ d.size := by omega
    simp [allocate, this, hd]

/-- Every answer of the allocator is that of first fit. -/
theorem allocate_cases {n b : Nat} {l l' : List Extent} (h : allocate n l = some (b, l')) :
    ∃ pre e post, l = pre ++ e :: post ∧ (∀ d ∈ pre, d.size < n) ∧ n ≤ e.size ∧ b = e.base ∧
      l' = pre ++ if e.size = n then post else { base := e.base + n, size := e.size - n } :: post := by
  induction l generalizing l' with
  | nil => simp [allocate] at h
  | cons e l ih =>
    by_cases he : n ≤ e.size
    · have := allocate_first n [] l e (by simp) he
      rw [List.nil_append] at this
      rw [this] at h
      simp only [Option.some.injEq, Prod.mk.injEq] at h
      exact ⟨[], e, l, rfl, by simp, he, h.1.symm, h.2.symm⟩
    · simp only [allocate, he, if_false, Option.map_eq_some_iff, Prod.mk.injEq] at h
      obtain ⟨⟨b', m⟩, hm, rfl, rfl⟩ := h
      obtain ⟨pre, d, post, rfl, h1, h2, rfl, rfl⟩ := ih hm
      exact ⟨e :: pre, d, post, rfl, by intro c hc; rcases List.mem_cons.mp hc with rfl | hc
                                        · omega
                                        · exact h1 c hc, h2, rfl, by simp⟩

/-- Entries that end below a freed extent are passed over. -/
theorem freeExtent_append (b n : Nat) (pre l : List Extent) (hn : 0 < n)
    (h : ∀ e ∈ pre, e.base + e.size < b) :
    freeExtent b n (pre ++ l) = pre ++ freeExtent b n l := by
  induction pre with
  | nil => rfl
  | cons e pre ih =>
    have he := h e (by simp)
    have := ih fun d hd => h d (by simp [hd])
    simp only [List.cons_append, freeExtent]
    rw [if_neg (by omega), if_neg (by omega), if_neg (by omega), this]

/-- A freed extent with no neighbour is a new entry in its place (R125, Table 7-2). -/
theorem freeExtent_alone (b n : Nat) (pre post : List Extent) (hn : 0 < n)
    (h : ∀ e ∈ pre, e.base + e.size < b) (h' : ∀ e ∈ post, b + n < e.base) :
    freeExtent b n (pre ++ post) = pre ++ { base := b, size := n } :: post := by
  rw [freeExtent_append b n pre post hn h]
  cases post with
  | nil => rfl
  | cons e post => simp [freeExtent, h' e (by simp)]

/-- A freed extent joins its lower neighbour (R125, Table 7-2). -/
theorem freeExtent_lower (b n : Nat) (pre post : List Extent) (lo : Extent) (hn : 0 < n)
    (h : ∀ e ∈ pre, e.base + e.size < b) (h' : ∀ e ∈ post, b + n < e.base)
    (hl : lo.base + lo.size = b) :
    freeExtent b n (pre ++ lo :: post) = pre ++ { lo with size := lo.size + n } :: post := by
  rw [freeExtent_append b n pre _ hn h]
  simp only [freeExtent]
  rw [if_neg (by omega), if_neg (by omega), if_pos hl]
  cases post with
  | nil => rfl
  | cons e post =>
    have := h' e (by simp)
    simp only
    rw [if_neg (by omega)]

/-- A freed extent joins its upper neighbour (R125, Table 7-2). -/
theorem freeExtent_upper (b n : Nat) (pre post : List Extent) (hi : Extent) (hn : 0 < n)
    (h : ∀ e ∈ pre, e.base + e.size < b) (hh : hi.base = b + n) :
    freeExtent b n (pre ++ hi :: post) = pre ++ { base := b, size := n + hi.size } :: post := by
  rw [freeExtent_append b n pre _ hn h]
  simp only [freeExtent]
  rw [if_neg (by omega), if_pos hh.symm]

/-- A freed extent joins both its neighbours (R125, Table 7-2). -/
theorem freeExtent_both (b n : Nat) (pre post : List Extent) (lo hi : Extent) (hn : 0 < n)
    (h : ∀ e ∈ pre, e.base + e.size < b) (hl : lo.base + lo.size = b) (hh : hi.base = b + n) :
    freeExtent b n (pre ++ lo :: hi :: post) =
      pre ++ { base := lo.base, size := lo.size + n + hi.size } :: post := by
  rw [freeExtent_append b n pre _ hn h]
  simp only [freeExtent]
  rw [if_neg (by omega), if_neg (by omega), if_pos hl, if_pos hh.symm]

/-! ### Coverage -/

@[simp] theorem freeCover_nil (a : Nat) : freeCover [] a = 0 := rfl

theorem freeCover_cons (e : Extent) (l : List Extent) (a : Nat) :
    freeCover (e :: l) a = (if e.base ≤ a ∧ a < e.base + e.size then 1 else 0) + freeCover l a := by
  unfold freeCover
  rw [List.filter_cons]
  by_cases h : e.base ≤ a ∧ a < e.base + e.size
  · simp [h]; omega
  · rw [if_neg h, if_neg (by simpa using h)]; omega

theorem freeCover_append (l m : List Extent) (a : Nat) :
    freeCover (l ++ m) a = freeCover l a + freeCover m a := by
  simp [freeCover]

/-- An allocation takes from the list exactly the addresses it hands out (R124). -/
theorem freeCover_allocate {n b : Nat} {l l' : List Extent} (hn : 0 < n)
    (h : allocate n l = some (b, l')) (a : Nat) :
    freeCover l a = freeCover l' a + if b ≤ a ∧ a < b + n then 1 else 0 := by
  obtain ⟨pre, e, post, rfl, -, h2, rfl, rfl⟩ := allocate_cases h
  by_cases he : e.size = n
  · simp only [freeCover_append, freeCover_cons, he, if_true]
    omega
  · simp only [freeCover_append, freeCover_cons, he, if_false]
    split <;> split <;> split <;> omega

/-- A free returns exactly the addresses of its extent to an ordered list (R125). -/
theorem freeCover_freeExtent (b n : Nat) (l : List Extent) (a : Nat) :
    freeCover (freeExtent b n l) a = freeCover l a + if b ≤ a ∧ a < b + n then 1 else 0 := by
  induction l with
  | nil => simp [freeExtent, freeCover_cons]
  | cons e rest ih =>
    simp only [freeExtent]
    split
    · simp only [freeCover_cons]; omega
    · split
      · simp only [freeCover_cons]
        split <;> split <;> split <;> omega
      · split
        · cases rest with
          | nil =>
            simp only [freeCover_cons]
            split <;> split <;> split <;> omega
          | cons f rest =>
            simp only
            split
            · simp only [freeCover_cons]
              split <;> split <;> split <;> split <;> omega
            · simp only [freeCover_cons]
              split <;> split <;> split <;> split <;> omega
        · simp only [freeCover_cons, ih]; omega

end Sys2Proof.Machine
end

