-- ==== Sys2Proof/Laws/Memory.lean ====
section
/-! SUPPORT. Reads after writes, the frame of a write, and the canonical form that every write keeps. -/

namespace Sys2Proof.Machine

/-- A written cell reads back, whatever the memory held. -/
theorem Mem.read?_write_same (m : Mem) (a : Nat) (v : Word16) : (m.write a v).read? a = some v := by
  induction m with
  | nil => simp [write, read?]
  | cons c rest ih =>
    obtain ⟨b, w⟩ := c
    simp only [write]
    split
    · simp [read?]
    · split
      · simp [read?]
      · rename_i h1 h2
        simp [read?, ih, Ne.symm h2]

/-- Every other cell reads as before. -/
theorem Mem.read?_write_ne {a b : Nat} (m : Mem) (v : Word16) (h : b ≠ a) :
    (m.write a v).read? b = m.read? b := by
  induction m with
  | nil => simp [write, read?, Ne.symm h]
  | cons c rest ih =>
    obtain ⟨d, w⟩ := c
    simp only [write]
    split
    · simp [read?, Ne.symm h]
    · split
      · rename_i h1 h2
        subst h2
        simp [read?, Ne.symm h]
      · simp [read?, ih]

/-- A run of writes from `a` upward leaves every cell outside it. -/
theorem Mem.read?_writeAll_outside (vs : List Word16) (m : Mem) (a b : Nat)
    (h : b < a ∨ a + vs.length ≤ b) : (m.writeAll a vs).read? b = m.read? b := by
  induction vs generalizing m a with
  | nil => rfl
  | cons v vs ih =>
    simp only [List.length_cons] at h
    rw [writeAll, ih _ _ (by omega), read?_write_ne m v (by omega)]

/-- A run of writes reads back. -/
theorem Mem.read?_writeAll_inside (vs : List Word16) (m : Mem) (a k : Nat) (h : k < vs.length) :
    (m.writeAll a vs).read? (a + k) = vs[k]? := by
  induction vs generalizing m a k with
  | nil => simp at h
  | cons v vs ih =>
    cases k with
    | zero => rw [writeAll, read?_writeAll_outside _ _ _ _ (by omega)]; simp [read?_write_same]
    | succ k =>
      simp only [List.length_cons] at h
      rw [writeAll, show a + (k + 1) = a + 1 + k by omega, ih _ _ _ (by omega)]; rfl

theorem Mem.above_write {a b : Nat} (m : Mem) (v : Word16) (h : Mem.above b m = true) (hb : b < a) :
    Mem.above b (m.write a v) = true := by
  induction m with
  | nil => simp [write, above, hb]
  | cons c rest ih =>
    obtain ⟨d, w⟩ := c
    simp only [above, List.all_cons, Bool.and_eq_true, decide_eq_true_eq] at h ih
    simp only [write]
    split
    · simp only [above, List.all_cons, Bool.and_eq_true, decide_eq_true_eq]; exact ⟨hb, h⟩
    · split
      · simp only [above, List.all_cons, Bool.and_eq_true, decide_eq_true_eq]; exact ⟨hb, h.2⟩
      · simp only [above, List.all_cons, Bool.and_eq_true, decide_eq_true_eq]
        exact ⟨h.1, ih h.2⟩

theorem Mem.above_mono {a b : Nat} (m : Mem) (h : Mem.above a m = true) (hb : b ≤ a) :
    Mem.above b m = true := by
  simp only [above, List.all_eq_true, decide_eq_true_eq] at h ⊢
  intro c hc
  have := h c hc
  omega

/-- A write keeps the canonical form. -/
theorem Mem.wf_write (m : Mem) (a : Nat) (v : Word16) (h : m.wf = true) : (m.write a v).wf = true := by
  induction m with
  | nil => simp [write, wf, above]
  | cons c rest ih =>
    obtain ⟨d, w⟩ := c
    simp only [wf, Bool.and_eq_true] at h
    simp only [write]
    split
    · rename_i h1
      simp only [wf, Bool.and_eq_true, above, List.all_cons, decide_eq_true_eq]
      exact ⟨⟨h1, above_mono rest h.1 (by omega)⟩, h⟩
    · split
      · rename_i h1 h2
        subst h2
        simpa only [wf, Bool.and_eq_true] using h
      · simp only [wf, Bool.and_eq_true]
        exact ⟨above_write rest v h.1 (by omega), ih h.2⟩

/-- A run of writes keeps the canonical form. -/
theorem Mem.wf_writeAll (vs : List Word16) (m : Mem) (a : Nat) (h : m.wf = true) :
    (m.writeAll a vs).wf = true := by
  induction vs generalizing m a with
  | nil => exact h
  | cons v vs ih => exact ih _ _ (wf_write m a v h)

/-- The memories at reset are in canonical form. -/
theorem reset_memories_wf : State.reset.sampleMem.wf = true ∧ State.reset.coefMem.wf = true :=
  ⟨rfl, rfl⟩

end Sys2Proof.Machine
end

