-- ==== Sys2Proof/Laws/Objects.lean ====
section
/-! SUPPORT. One step of an eviction and of a countdown, what the references of rings and sets leave, and
that the work of a block does not see the queue its command came from. -/

namespace Sys2Proof.Machine

/-! ### Eviction -/

/-- The eviction of one pinning job, field by field (02 R39, R40, 03 R66). -/
theorem evict_eq {r : RingId} {s : State} {j : JobId} {b : Job} (hj : s.job j = some b)
    (hp : b.state.pins = true) :
    evict r s j = { s with
      jobs := s.jobs.put j (some { b with
        state := if b.armed then .armed else .defined, lost := bump Config.counterLimit b.lost })
      ready := if b.state.waits then
          s.ready.put b.par.priority ((s.cls b.par.priority).filter fun k => k ≠ j)
        else s.ready
      psu := if b.state = .running then none else s.psu
      sessions := s.sessions.put b.owner { s.session b.owner with
        pendingList := requestFault j r (s.session b.owner).pendingList } } := by
  unfold evict
  simp only [hj]
  cases hs : b.state with
  | ready | running | parked _ =>
    simp [abandon, hs, leaveClass, JobState.waits, State.putJob, State.putClass, State.modSession,
      State.putSession, Job.returnState, State.session]
  | _ => simp [hs, JobState.pins] at hp

/-- An eviction leaves rings and sample memory alone. -/
theorem evict_frame (r : RingId) (s : State) (j : JobId) :
    (evict r s j).rings = s.rings ∧ (evict r s j).sampleMem = s.sampleMem := by
  unfold evict
  cases s.job j with
  | none => exact ⟨rfl, rfl⟩
  | some b => simp only [abandon]; cases b.state <;> exact ⟨rfl, rfl⟩

/-- Evictions leave rings and sample memory alone. -/
theorem evictAll_frame (r : RingId) (js : List JobId) (s : State) :
    (evictAll r js s).rings = s.rings ∧ (evictAll r js s).sampleMem = s.sampleMem := by
  induction js generalizing s with
  | nil => exact ⟨rfl, rfl⟩
  | cons j js ih =>
    have h := evict_frame r s j
    exact ⟨(ih (evict r s j)).1.trans h.1, (ih (evict r s j)).2.trans h.2⟩

/-- An eviction does not see the queue its command came from. -/
theorem evict_takeCommand (x : Port) (l : List Command) (r : RingId) (s : State) (j : JobId) :
    evict r (takeCommand x l s) j = takeCommand x l (evict r s j) := by
  unfold evict
  simp only [job_takeCommand]
  cases s.job j with
  | none => rfl
  | some b =>
    simp only [abandon]
    cases b.state <;> cases x <;> cases b.owner <;> rfl

/-- Evictions do not see the queue their command came from. -/
theorem evictAll_takeCommand (x : Port) (l : List Command) (r : RingId) (js : List JobId)
    (s : State) : evictAll r js (takeCommand x l s) = takeCommand x l (evictAll r js s) := by
  induction js generalizing s with
  | nil => rfl
  | cons j js ih =>
    simp only [evictAll, List.foldl_cons, evict_takeCommand] at ih ⊢
    exact ih _

/-! ### Triggers and countdowns -/

/-- A countdown step passes over a job that is EMPTY, of another ring or not armed (01 R13). -/
theorem countdownJob_skip {r : RingId} {head fill : Nat} {s : State} {j : JobId}
    (h : ∀ b, s.job j = some b → b.ring = r → b.armed = false) :
    countdownJob r head fill s j = s := by
  unfold countdownJob
  cases hj : s.job j with
  | none => rfl
  | some b =>
    simp only
    rw [if_neg]
    rintro ⟨h1, h2⟩
    simp [h b hj h2] at h1

/-- A countdown above 1 goes down by one (02 R34). -/
theorem countdownJob_count {r : RingId} {head fill : Nat} {s : State} {j : JobId} {b : Job}
    (hj : s.job j = some b) (ha : b.armed = true) (hr : b.ring = r) (hc : 1 < b.countdown) :
    countdownJob r head fill s j = s.putJob j (some { b with countdown := b.countdown - 1 }) := by
  have : ¬ b.countdown ≤ 1 := by omega
  simp [countdownJob, hj, ha, hr, this]

/-- A countdown that ends reloads and meets a trigger (02 R34). -/
theorem countdownJob_trigger {r : RingId} {head fill : Nat} {s : State} {j : JobId} {b : Job}
    (hj : s.job j = some b) (ha : b.armed = true) (hr : b.ring = r) (hc : b.countdown ≤ 1) :
    countdownJob r head fill s j = trigger j { b with countdown := b.par.stride } head fill s := by
  simp [countdownJob, hj, ha, hr, hc]

/-- A trigger with too low a fill is skipped (02 R35). -/
theorem trigger_skipped {j : JobId} {b : Job} {head fill : Nat} (s : State)
    (h : fill < b.par.length) : trigger j b head fill s =
      s.putJob j (some { b with skipped := bump Config.counterLimit b.skipped }) := by
  simp [trigger, h]

/-- A trigger that meets an ARMED job fires it (02 R36). -/
theorem trigger_fires {j : JobId} {b : Job} {head fill : Nat} (s : State) (h : b.par.length ≤ fill)
    (hs : b.state = .armed) : trigger j b head fill s = fire j b head false s := by
  have : ¬ fill < b.par.length := by omega
  simp [trigger, this, hs]

/-- A trigger that meets a job in READY, RUNNING, PARKED or HELD is missed (02 R37). -/
theorem trigger_missed {j : JobId} {b : Job} {head fill : Nat} (s : State) (h : b.par.length ≤ fill)
    (hs : b.state ≠ .armed) (hd : b.state ≠ .defined) : trigger j b head fill s =
      (s.putJob j (some { b with missed := bump Config.counterLimit b.missed })).modSession b.owner
        fun z => { z with pendingList := requestOverrun j z.pendingList } := by
  have : ¬ fill < b.par.length := by omega
  simp only [trigger, this, if_false]
  cases hst : b.state <;> simp_all

/-- A countdown step does not see the queue its command came from. -/
theorem countdownJob_takeCommand (x : Port) (l : List Command) (r : RingId) (head fill : Nat)
    (s : State) (j : JobId) :
    countdownJob r head fill (takeCommand x l s) j = takeCommand x l (countdownJob r head fill s j) := by
  unfold countdownJob
  simp only [job_takeCommand]
  cases s.job j with
  | none => rfl
  | some b =>
    simp only
    split
    · split
      · simp only [trigger]
        split
        · rfl
        · cases b.state <;> cases x <;> cases b.owner <;> rfl
      · rfl
    · rfl

/-- Samples written do not see the queue their command came from. -/
theorem writeSample_takeCommand (x : Port) (l : List Command) (r : RingId) (g : Ring) (v : Word16)
    (s : State) : writeSample r g v (takeCommand x l s) = takeCommand x l (writeSample r g v s) := by
  have h : ∀ (js : List JobId) (t : State),
      js.foldl (countdownJob r g.taken.head g.taken.fill) (takeCommand x l t) =
        takeCommand x l (js.foldl (countdownJob r g.taken.head g.taken.fill) t) := by
    intro js
    induction js with
    | nil => intro t; rfl
    | cons j js ih =>
      intro t
      simp only [List.foldl_cons, countdownJob_takeCommand, ih]
  have hw : ({ takeCommand x l s with
      sampleMem := s.sampleMem.write (g.base + g.head % g.capacity) v }.putRing r (some g.taken)) =
      takeCommand x l ({ s with
        sampleMem := s.sampleMem.write (g.base + g.head % g.capacity) v }.putRing r
          (some g.taken)) := by
    cases x <;> rfl
  unfold writeSample countdownStep
  rw [← h, ← hw]
  rfl

theorem mayWrite_takeCommand (x : Port) (l : List Command) (r : RingId) (g : Ring) (s : State) :
    mayWrite r g (takeCommand x l s) = mayWrite r g s := rfl

/-- The samples of a RING_WRITE do not see the queue their command came from. -/
theorem writeSamples_takeCommand (x : Port) (l : List Command) (r : RingId) (ws : List Word16)
    (n : Nat) (s : State) : writeSamples r ws n (takeCommand x l s) =
      ((writeSamples r ws n s).1, takeCommand x l (writeSamples r ws n s).2) := by
  induction ws generalizing n s with
  | nil => rfl
  | cons v ws ih =>
    simp only [writeSamples, ring_takeCommand]
    cases s.ring r with
    | none => rfl
    | some g =>
      by_cases hm : mayWrite r g s = true
      · simp only [mayWrite_takeCommand, hm, if_true, writeSample_takeCommand, ih]
      · simp only [mayWrite_takeCommand, hm]
        rfl

/-! ### References -/

/-- A job more names the ring (01 R6). -/
theorem refRing_eq {r : RingId} {g : Ring} {s : State} (h : s.ring r = some g) :
    refRing r s = s.putRing r (some { g with refs := g.refs + 1 }) := by simp [refRing, h]

/-- A job less names the ring, which stays (01 R6). -/
theorem unrefRing_stays {r : RingId} {g : Ring} {s : State} (h : s.ring r = some g)
    (hs : g.orphaned = false ∨ 1 < g.refs) :
    unrefRing r s = s.putRing r (some { g with refs := g.refs - 1 }) := by
  simp only [unrefRing, h]
  rw [if_neg]
  rintro ⟨h1, h2⟩
  rcases hs with hs | hs
  · simp [h1] at hs
  · omega

/-- The last job that names an orphaned ring frees it: extent, channel and record (01 R7, R1). -/
theorem unrefRing_frees {r : RingId} {g : Ring} {s : State} (h : s.ring r = some g)
    (ho : g.orphaned = true) (hs : g.refs ≤ 1) :
    unrefRing r s =
      (unbind g.source { s with sampleFree := freeExtent g.base g.capacity s.sampleFree }).putRing r
        none := by
  have h0 : g.refs - 1 = 0 := by omega
  simp only [unrefRing, h, ho, h0, and_self, if_true, freeRing, State.ring_putRing]
  cases g.source <;> simp [unbind, State.putRing, State.putBinding]

/-- A job more names the set (06 R106). -/
theorem refSet_eq {c : SetId} {v : CoefSet} {s : State} (h : s.coef c = some v) :
    refSet c s = s.putCoef c (some { v with refs := v.refs + 1 }) := by simp [refSet, h]

/-- A job less names the set, which stays (06 R106). -/
theorem unrefSet_stays {c : SetId} {v : CoefSet} {s : State} (h : s.coef c = some v)
    (hs : v.isOrphaned = false ∨ 1 < v.refs) :
    unrefSet c s = s.putCoef c (some { v with refs := v.refs - 1 }) := by
  simp only [unrefSet, h]
  rw [if_neg]
  rintro ⟨h1, h2⟩
  rcases hs with hs | hs
  · simp [h1] at hs
  · omega

/-- The last job that names an orphaned set frees it (06 R107, R104). -/
theorem unrefSet_frees {c : SetId} {v : CoefSet} {s : State} (h : s.coef c = some v)
    (ho : v.isOrphaned = true) (hs : v.refs ≤ 1) :
    unrefSet c s =
      { s with coefFree := freeExtent v.base v.length s.coefFree }.putCoef c none := by
  have h0 : v.refs - 1 = 0 := by omega
  simp only [unrefSet, h, ho, h0, and_self, if_true, freeSet, State.coef_putCoef]
  simp [State.putCoef]

end Sys2Proof.Machine
end

