-- ==== Sys2Proof/Laws/Operands.lean ====
section
/-! SUPPORT. How argument bytes are read: ids, sources and runs of 2-byte values (11 R184, Table 11-3). -/

namespace Sys2Proof.Machine

@[simp] theorem ringId?_idByte (r : RingId) : ringId? (idByte r) = some r := by revert r; decide
@[simp] theorem setId?_idByte (c : SetId) : setId? (idByte c) = some c := by revert c; decide
@[simp] theorem jobId?_idByte (j : JobId) : jobId? (idByte j) = some j := by revert j; decide
@[simp] theorem priority?_idByte (c : ClassId) : priority? (idByte c) = some c := by revert c; decide
@[simp] theorem runMode?_code (m : RunMode) : runMode? m.code = some m := by cases m <;> rfl

/-- A ring id above 7 names no ring (01 R22). -/
theorem ringId?_eq_none {b : Byte} (h : 8 ≤ b.toNat) : ringId? b = none := by
  simp only [ringId?]; rw [dif_neg (by omega)]

/-- A set id above 15 names no set (06 R117). -/
theorem setId?_eq_none {b : Byte} (h : 16 ≤ b.toNat) : setId? b = none := by
  simp only [setId?]; rw [dif_neg (by omega)]

/-- A job id above 31 names no job (02 R27). -/
theorem jobId?_eq_none {b : Byte} (h : 32 ≤ b.toNat) : jobId? b = none := by
  simp only [jobId?]; rw [dif_neg (by omega)]

/-- A source byte other than 00h to 03h and 10h names no source (01 R17). -/
theorem source?_eq_none {b : Byte} (h : 4 ≤ b.toNat) (h' : b ≠ 0x10) : source? b = none := by
  simp only [source?]
  rw [dif_neg (by omega), if_neg h']

theorem leBytes_length (n v : Nat) : (leBytes n v).length = n := by
  induction n generalizing v with
  | zero => rfl
  | succ n ih => simp [leBytes, ih]

/-- A field of `n` bytes carries every value below 256^n (11 R184). -/
theorem leNat_leBytes (n v : Nat) : leNat (leBytes n v) = v % 256 ^ n := by
  induction n generalizing v with
  | zero => simp [leBytes, leNat, Nat.mod_one]
  | succ n ih =>
    have h := Nat.mod_mul (x := v) (a := 256) (b := 256 ^ n)
    rw [← Nat.pow_succ'] at h
    simpa only [leBytes, leNat, ih, BitVec.toNat_ofNat] using h.symm

/-- A run of 2-byte values is read as it was written (11 R184). -/
@[simp] theorem words16_bytes16 (ws : List Word16) : words16 (bytes16 ws) = some ws := by
  induction ws with
  | nil => rfl
  | cons w ws ih =>
    have hb : bytes16 (w :: ws) =
        BitVec.ofNat 8 w.toNat :: BitVec.ofNat 8 (w.toNat / 256) :: bytes16 ws := by
      simp [bytes16, leBytes]
    rw [hb]
    simp only [words16, ih, Option.map_some]
    congr 2
    apply BitVec.eq_of_toNat_eq
    have := w.isLt
    simp only [leNat, BitVec.toNat_ofNat]
    omega

/-- A run of 2-byte values has twice as many bytes (11 Table 11-3). -/
theorem words16_length {l : List Byte} {ws : List Word16} (h : words16 l = some ws) :
    l.length = 2 * ws.length := by
  induction l using words16.induct generalizing ws with
  | case1 => simp [words16] at h; simp [h]
  | case2 lo hi rest ih =>
    simp only [words16, Option.map_eq_some_iff] at h
    obtain ⟨w, hw, rfl⟩ := h
    have := ih hw
    simp only [List.length_cons]; omega
  | case3 => simp [words16] at h

/-- A sample word of channel and value splits into them (01 R9). -/
theorem wordChannel_append (c : ChannelId) (v : Word16) :
    wordChannel (BitVec.ofNat 2 c.val ++ v) = c := by
  apply Fin.ext
  have hv := v.isLt
  have hc := c.isLt
  simp only [wordChannel, BitVec.toNat_append, BitVec.toNat_ofNat]
  rw [← Nat.shiftLeft_add_eq_or_of_lt hv, Nat.shiftLeft_eq]
  omega

/-- A sample word of channel and value splits into them (01 R9). -/
theorem wordValue_append (c : ChannelId) (v : Word16) :
    wordValue (BitVec.ofNat 2 c.val ++ v) = v := by
  apply BitVec.eq_of_toNat_eq
  have hv := v.isLt
  simp only [wordValue, BitVec.toNat_setWidth, BitVec.toNat_append, BitVec.toNat_ofNat]
  rw [← Nat.shiftLeft_add_eq_or_of_lt hv, Nat.shiftLeft_eq]
  omega

end Sys2Proof.Machine
end

