-- ==== Sys2Proof/WellFormed.lean ====
section
/-! DEFINITION. Which commands are well formed. The operand types admit only what the wires can carry,
so one check is left: the LEN byte of a FRAME_LENGTH_ERROR is above 248 (10 R168). -/

namespace Sys2Proof

/-- Whether the operands of a command are such as its row admits. -/
def Instr.wellFormed : Instr → Bool
  | .frameLengthError _ len => Config.maxPayload < len.toNat
  | .rstn _ _ | .sampleArrival _ | .segmentEnd | .runEnd | .frameResolution _ _ | .hello _ _
  | .badKind _ | .bye _ | .status _ | .ringCreate _ | .ringDelete _ | .ringFlush _ | .ringWrite _
  | .ringRead _ | .ringQuery _ | .setBegin _ | .setData _ | .setEnd _ | .setAbort _ | .setDelete _
  | .setQuery _ | .memQuery _ | .jobDefine _ | .jobArm _ | .jobStart _ | .jobCancel _
  | .jobDelete _ | .jobQuery _ | .jobWatch _ | .fetch _ | .transmitArbiterChoice _
  | .transmissionEnd _ | .noticeTimerExpiry _ | .framingError _ | .interByteGap | .linkReset
  | .deselect | .byteDelivered _ _ => true

end Sys2Proof
end

