-- ==== Sys2Proof/Laws/PerInstr.lean ====
section
/-! SUPPORT. A statement about every command as syntax, one lemma for each constructor. -/

namespace Sys2Proof.Laws.IllFormedOnlyByItsLength

/-- A command is well formed, or it is a FRAME_LENGTH_ERROR whose LEN byte is no error (10 R168). -/
def Statement (i : Instr) : Prop :=
  i.wellFormed = true ∨ ∃ p len, i = .frameLengthError p len ∧ len.toNat ≤ 248

theorem rstn (baud : Level) (lines : Lines) : Statement (.rstn baud lines) := .inl rfl
theorem sampleArrival (periods : List SpPeriod) : Statement (.sampleArrival periods) := .inl rfl
theorem segmentEnd : Statement .segmentEnd := .inl rfl
theorem runEnd : Statement .runEnd := .inl rfl
theorem frameResolution (p : Port) (last : Byte) : Statement (.frameResolution p last) := .inl rfl
theorem frameLengthError (p : Port) (len : Byte) : Statement (.frameLengthError p len) := by
  by_cases h : 248 < len.toNat
  · exact .inl (by simpa [Instr.wellFormed] using h)
  · exact .inr ⟨p, len, rfl, by omega⟩
theorem hello (p : Port) (last : Byte) : Statement (.hello p last) := .inl rfl
theorem badKind (x : Port) : Statement (.badKind x) := .inl rfl
theorem bye (x : Port) : Statement (.bye x) := .inl rfl
theorem status (x : Port) : Statement (.status x) := .inl rfl
theorem ringCreate (x : Port) : Statement (.ringCreate x) := .inl rfl
theorem ringDelete (x : Port) : Statement (.ringDelete x) := .inl rfl
theorem ringFlush (x : Port) : Statement (.ringFlush x) := .inl rfl
theorem ringWrite (x : Port) : Statement (.ringWrite x) := .inl rfl
theorem ringRead (x : Port) : Statement (.ringRead x) := .inl rfl
theorem ringQuery (x : Port) : Statement (.ringQuery x) := .inl rfl
theorem setBegin (x : Port) : Statement (.setBegin x) := .inl rfl
theorem setData (x : Port) : Statement (.setData x) := .inl rfl
theorem setEnd (x : Port) : Statement (.setEnd x) := .inl rfl
theorem setAbort (x : Port) : Statement (.setAbort x) := .inl rfl
theorem setDelete (x : Port) : Statement (.setDelete x) := .inl rfl
theorem setQuery (x : Port) : Statement (.setQuery x) := .inl rfl
theorem memQuery (x : Port) : Statement (.memQuery x) := .inl rfl
theorem jobDefine (x : Port) : Statement (.jobDefine x) := .inl rfl
theorem jobArm (x : Port) : Statement (.jobArm x) := .inl rfl
theorem jobStart (x : Port) : Statement (.jobStart x) := .inl rfl
theorem jobCancel (x : Port) : Statement (.jobCancel x) := .inl rfl
theorem jobDelete (x : Port) : Statement (.jobDelete x) := .inl rfl
theorem jobQuery (x : Port) : Statement (.jobQuery x) := .inl rfl
theorem jobWatch (x : Port) : Statement (.jobWatch x) := .inl rfl
theorem fetch (x : Port) : Statement (.fetch x) := .inl rfl
theorem transmitArbiterChoice (p : Port) : Statement (.transmitArbiterChoice p) := .inl rfl
theorem transmissionEnd (p : Port) : Statement (.transmissionEnd p) := .inl rfl
theorem noticeTimerExpiry (x : Port) : Statement (.noticeTimerExpiry x) := .inl rfl
theorem framingError (counted : Bool := false) : Statement (.framingError counted) := .inl rfl
theorem interByteGap : Statement .interByteGap := .inl rfl
theorem linkReset : Statement .linkReset := .inl rfl
theorem deselect : Statement .deselect := .inl rfl
theorem byteDelivered (p : Port) (b : Byte) : Statement (.byteDelivered p b) := .inl rfl

end Sys2Proof.Laws.IllFormedOnlyByItsLength
end

