-- ==== Sys2Proof/Laws/Ports.lean ====
section
/-! SUPPORT. The sample port's words (01 R9), the delivery of a byte with the expiry of an overdue timer
(10 R168, 09 R158), the timed happenings that are commanded (10 R172, R173; 09 R162), and the start of a byte exchange on port S (10 R177). -/

namespace Sys2Proof.Machine

/-! ### Sample words -/

/-- The bits shifted into a word stand at its low end, the last at bit 0. -/
theorem getLsbD_foldl_shiftConcat {w : Nat} (l : List Bool) (x : BitVec w) (i : Nat) (h : i < w) :
    (l.foldl BitVec.shiftConcat x).getLsbD i =
      if i < l.length then l.getD (l.length - 1 - i) false else x.getLsbD (i - l.length) := by
  induction l generalizing x with
  | nil => rfl
  | cons b l ih =>
    rw [List.foldl_cons, ih, List.length_cons]
    by_cases h1 : i < l.length
    · have h2 : i < l.length + 1 := by omega
      have h3 : l.length + 1 - 1 - i = (l.length - 1 - i) + 1 := by omega
      rw [if_pos h1, if_pos h2, h3, List.getD_cons_succ]
    · by_cases h2 : i = l.length
      · subst h2
        rw [if_neg h1, if_pos (by omega)]
        simp [BitVec.getLsbD_shiftConcat]; omega
      · have h3 : ¬ i < l.length + 1 := by omega
        have h4 : i - l.length = (i - (l.length + 1)) + 1 := by omega
        rw [if_neg h1, if_neg h3, h4, BitVec.getLsbD_shiftConcat]
        simp; omega

/-- Bit `i` of a whole sample word is the bit taken `17 − i` periods after its first (01 R9). -/
theorem getLsbD_wordOf {bits : List Bool} (h : bits.length = 18) {i : Nat} (hi : i < 18) :
    (wordOf bits).getLsbD i = bits.getD (17 - i) false := by
  rw [wordOf, getLsbD_foldl_shiftConcat _ _ _ hi, h, if_pos hi]

/-- The value of a whole word is its last 16 bits, most significant bit first (01 R9). -/
theorem getLsbD_wordValue {bits : List Bool} (h : bits.length = 18) {i : Nat} (hi : i < 16) :
    (wordValue (wordOf bits)).getLsbD i = bits.getD (17 - i) false := by
  rw [wordValue, BitVec.getLsbD_setWidth, getLsbD_wordOf h (by omega)]
  simp [hi]

/-- The bits of the periods of a word are the word of its channel and value (01 R9). -/
theorem wordOf_wordPeriods (c : ChannelId) (v : Word16) :
    wordOf ((wordPeriods c v).map SpPeriod.bit) = BitVec.ofNat 2 c.val ++ v := by
  apply BitVec.eq_of_getLsbD_eq
  intro i hi
  have hb : ∀ k < 18, ((wordPeriods c v).map SpPeriod.bit).getD k false =
      if k < 2 then c.val.testBit (1 - k) else v.getLsbD (17 - k) := by
    intro k hk
    simp [wordPeriods, List.getD_eq_getElem?_getD, List.getElem?_range hk]
  rw [getLsbD_wordOf (by simp [wordPeriods]) hi, hb _ (by omega), BitVec.getLsbD_append]
  by_cases h : i < 16
  · have h1 : ¬ 17 - i < 2 := by omega
    have h2 : 17 - (17 - i) = i := by omega
    rw [if_neg h1, h2, if_pos h]
  · have h1 : 17 - i < 2 := by omega
    have h2 : 1 - (17 - i) = i - 16 := by omega
    have h3 : i - 16 < 2 := by omega
    rw [if_pos h1, h2, if_neg h, BitVec.getLsbD_ofNat]
    simp [h3]

/-- A word's eighteenth bit makes it arrive (01 R9). -/
theorem clockSample_last {s : State} (b : Bool) (h : s.spWord.length = 17) :
    clockSample s { mark := false, bit := b } =
      sampleArrival (wordChannel (wordOf (s.spWord ++ [b]))) (wordValue (wordOf (s.spWord ++ [b])))
        { s with spWord := [] } := by
  have h0 : s.spWord ≠ [] := by intro e; simp [e] at h
  simp [clockSample, h0, h]

/-! ### The delivery of a byte -/

/-- A byte that completes no ACK with progress is delivered and its happening ends (10 R168). -/
theorem hear_of_not_ack {p : Port} {b : Byte} {s : State} (h : completesAck p b s = false) :
    hear p b s = finish (deliver p b s) := by simp [hear, h]

/-- A byte that completes no frame completes no ACK. -/
theorem completesAck_eq_false {p : Port} {b : Byte} {s : State} (h : completes p b s = none) :
    completesAck p b s = false := by simp [completesAck, h]

/-- What an overdue timer's expiry can do (09 R158). -/
theorem expireOverdue_cases (x : Port) (s : State) :
    ((∃ t, (s.session x).timer = some t ∧ t ≤ s.ms) ∧ expireOverdue x s = finish (expire x s)) ∨
    ((∀ t, (s.session x).timer = some t → s.ms < t) ∧ expireOverdue x s = s) := by
  unfold expireOverdue
  cases (s.session x).timer with
  | none => exact .inr ⟨fun _ h => absurd h (by simp), rfl⟩
  | some t =>
    by_cases ht : t ≤ s.ms
    · exact .inl ⟨⟨t, rfl, ht⟩, by simp [ht]⟩
    · exact .inr ⟨fun u hu => by simp at hu; omega, by simp [ht]⟩

/-! ### Timed happenings and port S -/

/-- A port S without a transmission at its end is left as it is (10 R177). -/
theorem endS_of_not_sentWhole {s : State} (h : sentWhole s = false) : endS s = s := by
  unfold sentWhole at h
  unfold endS
  cases hc : s.txS.current with
  | none => rfl
  | some o => simp [hc] at h; simp; omega

/-- What the command of a timed happening can do (log 4). -/
theorem timed_cases (due : State → Option Nat) (act : State → State) (s : State) :
    (∃ t, due (endS s) = some t ∧ quietUntil t (endS s) = true ∧
      timed due act s = .next (finish (act (advanceTo t (endS s))))) ∨
    ((∀ t, due (endS s) = some t → quietUntil t (endS s) = false) ∧ timed due act s = .next s) := by
  unfold timed
  cases hd : due (endS s) with
  | none => exact .inr ⟨fun _ h => (by cases h), rfl⟩
  | some t =>
    by_cases h : quietUntil t (endS s) = true
    · exact .inl ⟨t, rfl, h, by simp [h]⟩
    · refine .inr ⟨fun u hu => ?_, by simp [h]⟩
      cases hu
      simpa using h

/-- The last change of URX to space at a framing error: at most one count back, and no earlier than port U
last had URX in view (10 R171, R173). -/
theorem spaceSince_bounds (counted : Bool) (s : State) (h : urxSeenAt s ≤ s.ms) :
    urxSeenAt s ≤ spaceSince counted s ∧ spaceSince counted s ≤ s.ms ∧
      s.ms ≤ spaceSince counted s + 1 := by
  unfold spaceSince
  split <;> omega


/-- A current frame with bytes unsent goes on (10 R177). -/
theorem startExchange_current {s : State} {o : Outbound} (h : s.txS.current = some o)
    (ho : o.position < o.frame.size) : startExchange s = select s := by
  have : endS s = s := by simp [endS, h]; omega
  simp [startExchange, this, select, h]

/-- The filler byte under way goes on (10 R177). -/
theorem startExchange_filler {s : State} (h : s.txS.current = none) (hf : s.txS.filler = true) :
    startExchange s = select s := by
  have : endS s = s := by simp [endS, h]
  simp [startExchange, this, select, h, hf]

/-- Without a current frame and a filler byte under way the arbiter is asked (10 R177). -/
theorem startExchange_ask {s : State} (h : s.txS.current = none) (hf : s.txS.filler = false) :
    startExchange s = askS (select s) := by
  have : endS s = s := by simp [endS, h]
  simp [startExchange, this, select, h, hf]

end Sys2Proof.Machine
end

