-- ==== Sys2Proof/Laws/Scheduling.lean ====
section
/-! SUPPORT. The end of a happening (03 R56 to R58, 10 R180), the products of a run (03 R59), pending
entries (09 R155), the pin of a ring (01 R4) and the session served next (08 R144). -/

namespace Sys2Proof.Machine

/-! ### The start step -/

/-- A busy PSU starts nothing (03 R56). -/
theorem startStep_busy {s : State} {run : Run} (h : s.psu = some run) : startStep s = s := by
  simp [startStep, h]

/-- The scheduler's choice is the head of the highest non-empty class (03 R56). -/
theorem nextToRun_eq_some {s : State} {c : ClassId} {j : JobId} {rest : List JobId}
    (h : s.cls c = j :: rest) (hi : ∀ d, c < d → s.cls d = []) : nextToRun s = some (c, j) := by
  have hc : ∀ d : ClassId, d = 0 ∨ d = 1 ∨ d = 2 ∨ d = 3 := by decide
  rcases hc c with rfl | rfl | rfl | rfl
  · simp [nextToRun, h, hi 1 (by decide), hi 2 (by decide), hi 3 (by decide)]
  · simp [nextToRun, h, hi 2 (by decide), hi 3 (by decide)]
  · simp [nextToRun, h, hi 3 (by decide)]
  · simp [nextToRun, h]

/-- With every class empty nothing starts (03 R56). -/
theorem startStep_empty {s : State} (h : ∀ c, s.cls c = []) : startStep s = s := by
  cases hp : s.psu with
  | some run => exact startStep_busy hp
  | none => simp [startStep, hp, nextToRun, h]

/-- The start of a READY job at the head of the highest non-empty class (03 R57). -/
theorem startStep_ready {s : State} {c : ClassId} {j : JobId} {b : Job} {rest : List JobId}
    (hp : s.psu = none) (h : s.cls c = j :: rest) (hi : ∀ d, c < d → s.cls d = [])
    (hj : s.job j = some b) (hs : b.state = .ready) :
    startStep s = { (s.putClass c rest).putJob j (some { b with state := .running }) with
      psu := some { job := j, acc := b.par.preset * 2 ^ b.par.presetShift, next := 0, sat := false } } := by
  simp [startStep, hp, nextToRun_eq_some h hi, startJob, hj, runOf, hs, h]

/-- The resumption of a PARKED job at the head of the highest non-empty class (03 R58). -/
theorem startStep_parked {s : State} {c : ClassId} {j : JobId} {b : Job} {p : Partial}
    {rest : List JobId} (hp : s.psu = none) (h : s.cls c = j :: rest)
    (hi : ∀ d, c < d → s.cls d = []) (hj : s.job j = some b) (hs : b.state = .parked p) :
    startStep s = { (s.putClass c rest).putJob j (some { b with state := .running }) with
      psu := some { job := j, acc := p.acc, next := p.next, sat := p.sat } } := by
  simp [startStep, hp, nextToRun_eq_some h hi, startJob, hj, runOf, hs, h]

/-! ### The end of a happening -/

/-- A settled state ends as it is (03 R56, 10 R180). -/
theorem finish_quiet {s : State} (h : Quiet s) : finish s = s := by
  have h1 : startStep s = s := by
    cases hp : s.psu with
    | some run => exact startStep_busy hp
    | none => exact startStep_empty (h.1 hp)
  unfold finish
  rw [h1]
  cases ht : s.txU with
  | some f => simp [askU, ht]
  | none =>
    obtain ⟨h2, h3⟩ := h.2 ht
    simp only [askU, ht, arbiter, h2, h3]
    rw [← ht]

/-- A sending port U begins nothing (10 R174). -/
theorem askU_sending {s : State} {f : Frame} (h : s.txU = some f) : askU s = s := by simp [askU, h]

/-- An IDLE port U begins the oldest reply of its FIFO (10 R180). -/
theorem askU_reply {s : State} {f : Frame} {rest : List Frame} (h : s.txU = none)
    (hf : (s.port .u).fifo = f :: rest) :
    askU s = { s.modPort .u fun q => { q with fifo := rest } with txU := some f } := by
  simp [askU, h, arbiter, hf]

/-- A frame placed in a settled state goes out at once on an IDLE port U, else waits in the FIFO
(10 R179, R180). -/
theorem finish_place {s : State} (x : Port) (f : Frame) (h : Quiet s) :
    finish (place x f s) = handOver x f s := by
  have h1 : startStep (place x f s) = place x f s := by
    cases hp : s.psu with
    | some run => exact startStep_busy (run := run) hp
    | none => exact startStep_empty fun c => h.1 hp c
  unfold finish
  rw [h1]
  cases ht : s.txU with
  | some g =>
    rw [askU_sending (f := g) (by exact ht)]
    cases x <;> simp [handOver, ht]
  | none =>
    obtain ⟨h2, h3⟩ := h.2 ht
    cases x with
    | u =>
      rw [askU_reply (s := place .u f s) (f := f) (rest := []) ht (by simp [place, h2])]
      have hfifo : ({ s.port .u with fifo := [] } : PortState) = s.port .u := by
        cases hq : s.port .u; rw [hq] at h2; simp_all
      have hput : s.ports.put .u (s.port .u) = s.ports := Pair.put_look _ _
      simp [handOver, ht, place, State.modPort, State.putPort, State.port_mk, hfifo, hput]
    | s =>
      have h4 : offer .u (place .s f s) = .nothing := h3
      have h5 : ((place .s f s).port .u).fifo = [] := h2
      have h6 : (place .s f s).txU = none := ht
      simp only [askU, h6, arbiter, h5, h4, handOver]
      rw [← h6]

/-! ### Products -/

/-- The products of a run, one after another in ascending index (03 R59). -/
theorem addProducts_add (s : State) (b : Job) (m n : Nat) (run : Run) :
    addProducts s b (m + n) run = addProducts s b n (addProducts s b m run) := by
  induction m generalizing run with
  | zero => simp [addProducts]
  | succ m ih => rw [Nat.succ_add]; simp only [addProducts, ih]

/-- `n` products move the next product index by `n` and keep the job (03 R59). -/
theorem addProducts_next (s : State) (b : Job) (n : Nat) (run : Run) :
    (addProducts s b n run).next = run.next + n ∧ (addProducts s b n run).job = run.job := by
  induction n generalizing run with
  | zero => exact ⟨rfl, rfl⟩
  | succ n ih =>
    have := ih (addProduct (sampleAt s b.ring (b.windowStart + run.next))
      (coefAt s b.set run.next) run)
    refine ⟨this.1.trans ?_, this.2⟩
    simp only [addProduct]; omega

/-! ### Pending entries -/

/-- A FAULT request without a pending entry of its job adds one at the tail (02 R40, 09 R155). -/
theorem requestFault_new {j : JobId} {r : RingId} {l : List Entry}
    (h : l.any (Entry.isFaultOf j) = false) : requestFault j r l = l ++ [.fault j r 1] := by
  simp [requestFault, h]

/-- A FAULT request folds into its job's pending entry in place (09 R155). -/
theorem requestFault_fold {j : JobId} {r r' : RingId} {n : Nat} {pre post : List Entry}
    (h : (pre ++ post).any (Entry.isFaultOf j) = false) :
    requestFault j r (pre ++ .fault j r' n :: post) =
      pre ++ .fault j r (bump Config.countLimit n) :: post := by
  have hmap : ∀ m : List Entry, m.any (Entry.isFaultOf j) = false →
      (m.map fun e => match e with
        | .fault k r' n => if k = j then .fault k r (bump Config.countLimit n) else .fault k r' n
        | e => e) = m := by
    intro m hm
    conv_rhs => rw [← List.map_id m]
    apply List.map_congr_left
    intro e he
    have := List.any_eq_false.mp hm e he
    cases e <;> simp_all [Entry.isFaultOf]
  rw [List.any_append, Bool.or_eq_false_iff] at h
  unfold requestFault
  rw [if_pos (by simp [Entry.isFaultOf]), List.map_append, List.map_cons]
  refine congrArg₂ _ (hmap pre h.1) (congrArg₂ List.cons ?_ (hmap post h.2))
  simp

/-- An OVERRUN request without a pending entry of its job adds one at the tail (02 R37). -/
theorem requestOverrun_new {j : JobId} {l : List Entry}
    (h : l.any (Entry.isOverrunOf j) = false) : requestOverrun j l = l ++ [.overrun j 1] := by
  simp [requestOverrun, h]

/-- An OVERRUN request folds into its job's pending entry in place (09 R155). -/
theorem requestOverrun_fold {j : JobId} {n : Nat} {pre post : List Entry}
    (h : (pre ++ post).any (Entry.isOverrunOf j) = false) :
    requestOverrun j (pre ++ .overrun j n :: post) =
      pre ++ .overrun j (bump Config.countLimit n) :: post := by
  have hmap : ∀ m : List Entry, m.any (Entry.isOverrunOf j) = false →
      (m.map fun e => match e with
        | .overrun k n => if k = j then .overrun k (bump Config.countLimit n) else .overrun k n
        | e => e) = m := by
    intro m hm
    conv_rhs => rw [← List.map_id m]
    apply List.map_congr_left
    intro e he
    have := List.any_eq_false.mp hm e he
    cases e <;> simp_all [Entry.isOverrunOf]
  rw [List.any_append, Bool.or_eq_false_iff] at h
  unfold requestOverrun
  rw [if_pos (by simp [Entry.isOverrunOf]), List.map_append, List.map_cons]
  refine congrArg₂ _ (hmap pre h.1) (congrArg₂ List.cons ?_ (hmap post h.2))
  simp

/-! ### The pin -/

theorem mem_allJobs (j : JobId) : j ∈ allJobs := List.mem_finRange j

/-- The pin is the lowest window start among the pinning jobs (01 R4). -/
theorem pin_eq_some {r : RingId} {s : State} {p : Nat} (h : pin r s = some p) :
    (∃ j b, s.job j = some b ∧ b.pinsRing r = true ∧ b.windowStart = p) ∧
    ∀ j b, s.job j = some b → b.pinsRing r = true → p ≤ b.windowStart := by
  obtain ⟨h1, h2⟩ := List.min?_eq_some_iff.mp h
  obtain ⟨j, -, hj⟩ := List.mem_filterMap.mp h1
  refine ⟨?_, ?_⟩
  · cases hb : s.job j with
    | none => simp [hb] at hj
    | some b =>
      simp only [hb] at hj
      split at hj
      · exact ⟨j, b, hb, ‹_›, by simpa using hj⟩
      · simp at hj
  · intro k b hk hb
    exact h2 _ (List.mem_filterMap.mpr ⟨k, mem_allJobs k, by simp [hk, hb]⟩)

/-- A ring without a pinning job has no pin (01 R4). -/
theorem pin_eq_none {r : RingId} {s : State} (h : pin r s = none) :
    ∀ j b, s.job j = some b → b.pinsRing r = false := by
  intro j b hj
  by_contra hb
  simp only [Bool.not_eq_false] at hb
  have h' := List.min?_eq_none_iff.mp h
  have hn := (List.filterMap_eq_nil_iff.mp h') j (mem_allJobs j)
  simp [hj, hb] at hn

/-! ### The session served next -/

/-- With one qualifying session that one is served; with two, the one the marker does not name
(08 R144). -/
theorem served_eq_some {s : State} {x : Port} (h : qualifies x s = true)
    (ho : qualifies (otherPort x) s = true → s.lastServed ≠ x) : served s = some x := by
  cases x <;> simp only [otherPort] at ho <;> unfold served <;> rw [h]
  · cases hq : qualifies .s s with
    | false => rfl
    | true => cases hl : s.lastServed <;> simp_all [otherPort]
  · cases hq : qualifies .u s with
    | false => rfl
    | true => cases hl : s.lastServed <;> simp_all [otherPort]

end Sys2Proof.Machine
end

