-- ==== Sys2Proof/Tests/Slice0.lean ====
section
/-! SUPPORT. Tests: the WellFormed smoke, values that the spec's own examples and tables give, and, for each
statement with hypotheses, a concrete state and operands that meet them, clause by clause. -/

namespace Sys2Proof.Tests

open Sys2Proof.Machine

/-! ### Well-formedness and table words -/

theorem test_illFormed_length : (Instr.frameLengthError .u 248).wellFormed = false := by decide

theorem test_wellFormed_length : (Instr.frameLengthError .u 249).wellFormed = true := by decide

theorem test_no_table_word : decodeTableWord 0 0 = none := rfl

/-! ### Values of the spec -/

/-- 10 R167: the CRC of the bytes 31h to 39h is 29B1h. -/
theorem test_crc16_check_value :
    crc16 [0x31, 0x32, 0x33, 0x34, 0x35, 0x36, 0x37, 0x38, 0x39] = 0x29B1 := by
  decide +kernel

/-- 03 Table 3-5: the four additions of a run without saturation. -/
theorem test_run_without_saturation :
    [((1000 : Word16), (3 : Word16)), (-2000, -1), (3000, 2), (500, 4)].foldl
      (fun run t => addProduct t.1 t.2 run) { job := 0, acc := 100 * 2 ^ 4, next := 0, sat := false } =
    { job := 0, acc := 14600, next := 4, sat := false } := by decide

/-- 03 Table 3-5: the outputs 913 and −912. -/
theorem test_round_shift : roundShift 14600 4 = 913 ∧ roundShift (-14600) 4 = -912 := by decide

/-- 03 Table 3-6: the accumulator clamps at the first addition, and the clamp stays seen. -/
theorem test_run_that_saturates :
    [((1000 : Word16), (100 : Word16)), (-1000, 100)].foldl (fun run t => addProduct t.1 t.2 run)
      { job := 0, acc := 2147483647 * 2 ^ 16, next := 0, sat := false } =
    { job := 0, acc := 140737488255327, next := 2, sat := true } ∧
    clampValue (roundShift 140737488255327 16) = (2147483646, false) ∧
    clampValue (roundShift (3 * 2 ^ 32) 0) = (2147483647, true) := by decide

/-- 05 Table 5-3, run 3: a second change folds into the pending ALERT entry of job 9. -/
theorem test_alert_folds :
    watchResult 9 (-650) 3 { low := -500, high := 500, current := .above, reported := .inside }
      [.alert 9 .above 700 1 0] =
    ({ low := -500, high := 500, current := .below, reported := .inside },
      [.alert 9 .below (-650) 3 1]) := by decide

/-- 05 Table 5-3, run 6: 500 lies inside the band, and the change back withdraws the entry. -/
theorem test_alert_is_withdrawn :
    watchResult 9 500 6 { low := -500, high := 500, current := .above, reported := .inside }
      [.alert 9 .above 800 5 0] =
    ({ low := -500, high := 500, current := .inside, reported := .inside }, []) := by decide

/-- 07 Table 7-3: the deletion of ring 1 joins both neighbours. -/
theorem test_free_joins_both :
    freeExtent 8192 8192 [{ base := 2000, size := 6192 }, { base := 16384, size := 8192 },
      { base := 30576, size := 2192 }] =
    [{ base := 2000, size := 22576 }, { base := 30576, size := 2192 }] := by decide

/-- 07 Table 7-3: first fit takes the low end of the first entry that fits. -/
theorem test_first_fit :
    allocate 2000 [{ base := 0, size := 8192 }, { base := 16384, size := 8192 },
      { base := 30576, size := 2192 }] =
    some (0, [{ base := 2000, size := 6192 }, { base := 16384, size := 8192 },
      { base := 30576, size := 2192 }]) := by decide

/-- 11 Table 11-10: the record of job 3 in a FETCH reply. -/
theorem test_record_bytes :
    Record.bytes { job := 3, run := 7, trigger := 1000, value := -42, sat := false, extra := false,
                   preempted := true } =
    [3, 7, 0, 0xE8, 0x03, 0, 0, 0xD6, 0xFF, 0xFF, 0xFF, 0x04] := by decide

/-- 01 R9: the channel and then the value, each most significant bit first. -/
theorem test_word_order :
    (wordPeriods 2 0x8001).map SpPeriod.bit =
      [true, false, true] ++ List.replicate 14 false ++ [true] ∧
    wordChannel (wordOf ((wordPeriods 2 0x8001).map SpPeriod.bit)) = 2 ∧
    wordValue (wordOf ((wordPeriods 2 0x8001).map SpPeriod.bit)) = 0x8001 := by decide

/-- 01 R9: the bit behind a word's eighteenth belongs to no word. -/
theorem test_bit_behind_a_word :
    let after : SpPeriod := { mark := false, bit := true }
    ((wordPeriods 2 5 ++ [after]).foldl clockSample State.reset).spWord = [] ∧
    ((wordPeriods 2 5).take 17 |>.foldl clockSample State.reset).spWord.length = 17 := by decide

/-- 10 R175: SDO is not driven after SSEL has risen in mid-byte, and the next window presents that byte
again: of the frame in transmission, or filler, though a reply waits by then. -/
theorem test_select_window :
    let s : State := { State.reset with txS :=
      { selected := true, current := some { frame := replyFrame 9 .ok 0x12 [], position := 2 },
        filler := false } }
    let t : State := startExchange State.reset
    let replied := place .s (replyFrame 9 .ok 0x12 []) (deselect t)
    sdoByte s = some 9 ∧ sdoByte (deselect s) = none ∧
    sdoByte (startExchange (deselect s)) = some 9 ∧
    sdoByte t = some 0x00 ∧ sdoByte (startExchange replied) = some 0x00 ∧
    sdoByte (startExchange (exchangeS replied)) = some 0xA5 := by decide

/-- 10 R173: the time at space is measured from the last change of URX to space, one count before the
framing error or at it; a second framing error in one count cannot reach back behind the first. -/
theorem test_time_at_space :
    let s : State := { State.reset with ms := 7 }
    let after (c : Bool) (s : State) : Option Nat :=
      match exec (.framingError c) s with
      | .next t => breakDue t
      | _ => none
    after true s = some 16 ∧ after false s = some 17 ∧
    after true { s with urx := .atSpace 6 7 } = some 17 ∧
    after true { s with urx := .broken 7 } = some 17 ∧
    after true { s with lastByteAt := 7 } = some 17 := by decide

/-- 10 R173, R177: a link reset whose time has come is taken behind the end of a transmission on
port S. -/
theorem test_link_reset_behind_a_transmission :
    let o : Outbound := { frame := replyFrame 9 .ok 0x12 [], position := 9 }
    let s : State := { State.reset with
      ms := 10, urx := .atSpace 0 0, txS := { selected := true, current := some o, filler := false } }
    ∃ t, exec .linkReset s = .next t ∧ t.urx = .broken 10 ∧ t.txS.current = none :=
  ⟨_, rfl, by decide⟩

/-! ### States for the witnesses -/

/-- A HOST ring of session U with 16 samples present, indices 4 to 19. -/
def hostRing : Ring :=
  { owner := some .u, orphaned := false, source := .host, base := 0, capacity := 16, head := 20,
    fill := 16, refs := 1 }

/-- A READY set of session U. -/
def readySet : CoefSet :=
  { owner := some .u, base := 0, length := 4, refs := 1, phase := .ready false 0x1234 }

/-- A LOADING set of session U. -/
def loadingSet : CoefSet :=
  { owner := some .u, base := 0, length := 4, refs := 0, phase := .loading }

/-- Job 0 of session U on ring 0 and set 0, in a state. -/
def jobIn (st : JobState) : Job :=
  { state := st, owner := .u, ring := 0, set := 0
    par := { length := 4, stride := 4, phase := 0, priority := 1, mode := .whole, preset := 100,
             presetShift := 4, outputShift := 4 }
    armed := false, countdown := 0, windowStart := 16, triggerHead := 20, extra := false,
    preempted := false, watch := none, runNumber := 0, completed := 0, missed := 0, skipped := 0,
    lost := 0 }

/-- An armed job whose next countdown step is a trigger. -/
def armedJob (st : JobState) : Job := { jobIn st with armed := true, countdown := 1 }

/-- A SEGMENTED job of 65 products. -/
def longJob : Job :=
  { jobIn .running with par := { (jobIn .running).par with length := 65, mode := .segmented } }

/-- A result record of job 0. -/
def record0 : Record :=
  { job := 0, run := 0, trigger := 20, value := 913, sat := false, extra := false, preempted := false }

/-- A watch of job 0. -/
def watch0 : Watch := { low := -500, high := 500, current := .above, reported := .inside }

/-- A notice of session U. -/
def notice (q : Byte) (marked : Bool) (sentAt : Option Nat) : Notice :=
  { frame := { kind := 0x03, seq := q, payload := [0x04, 0xFF, 1] }, marked := marked, sentAt := sentAt }

/-- Ring 0, set 0 and job 0. -/
def withJob (b : Job) : State :=
  ((State.reset.putRing 0 (some hostRing)).putCoef 0 (some readySet)).putJob 0 (some b)

theorem job_withJob (b : Job) (j : JobId) : (withJob b).job j = if j = 0 then some b else none := by
  simp only [withJob, State.job_putJob]
  split
  · rfl
  · exact Table.look_replicate none j

/-- Session U is OPEN, and one command with sequence number 7 stands in its queue. -/
def waiting (payload : List Byte) (s : State) : State :=
  s.modSession .u fun z =>
    { z with isOpen := true, expected := 8, timeout := 100, queue := [{ seq := 7, payload := payload }] }

/-- Session U with its record changed. -/
def sessionU (f : Session → Session) (s : State) : State := s.modSession .u f

/-- Port U's receiver in a state. -/
def receiving (rx : Receiver) (s : State) : State := s.modPort .u fun q => { q with rx := rx }

/-! ### The step -/

theorem witness_StepRunsTheFrontCommand :
    ({ State.reset with pending := [.deselect, .linkReset] } : State).pending =
      .deselect :: [.linkReset] := rfl

theorem witness_EmptyQueueTakesWhatIsDueOrTicks :
    State.reset.pending = [] ∧ dueNow State.reset = none ∧
    ({ receiving (.header []) State.reset with ms := 6 } : State).pending = [] ∧
    dueNow { receiving (.header []) State.reset with ms := 6 } = some .interByteGap ∧
    dueNow { receiving (.header []) State.reset with ms := 5 } = none := by decide

/-! ### The arbiter -/

theorem witness_ArbiterTakesReply :
    ((State.reset.modPort .u fun y => { y with fifo := [replyFrame 1 .ok 0x12 []] }).port .u).fifo =
      replyFrame 1 .ok 0x12 [] :: [] := by decide

theorem witness_ArbiterTakesMarked :
    let s := sessionU (fun z => { z with
      isOpen := true, inFlight := [notice 0 false none, notice 1 true none] }) State.reset
    (s.port .u).fifo = [] ∧ (s.session .u).isOpen = true ∧
    (s.session .u).inFlight = [notice 0 false none] ++ notice 1 true none :: [] ∧
    (∀ m ∈ [notice 0 false none], m.marked = false) ∧ (notice 1 true none).marked = true := by decide

theorem witness_ArbiterTakesPending :
    let s := sessionU (fun z => { z with
      isOpen := true, pendingList := [.results]
      inFlight := [notice 0 false none, notice 1 false none, notice 2 false none] }) State.reset
    ((s.port .u).fifo = [] ∧ (s.session .u).isOpen = true ∧
      (∀ m ∈ (s.session .u).inFlight, m.marked = false) ∧ (s.session .u).inFlight.length < 4 ∧
      (s.session .u).pendingList = .results :: []) ∧
    ∀ j c v n k, Entry.results ≠ .alert j c v n k :=
  ⟨by decide, by intros; simp⟩

theorem witness_ArbiterTakesAlert :
    let b := { jobIn .defined with watch := some watch0 }
    let s := sessionU (fun z => { z with
      isOpen := true, pendingList := [.alert 0 .above 700 1 0] }) (withJob b)
    (s.port .u).fifo = [] ∧ (s.session .u).isOpen = true ∧
    (∀ m ∈ (s.session .u).inFlight, m.marked = false) ∧ (s.session .u).inFlight.length < 4 ∧
    (s.session .u).pendingList = .alert 0 .above 700 1 0 :: [] ∧ s.job 0 = some b ∧
    b.watch = some watch0 := by decide

theorem witness_ArbiterTakesNothing :
    let s := sessionU (fun z => { z with
      isOpen := true, pendingList := [.results]
      inFlight := [notice 0 false none, notice 1 false none, notice 2 false none,
        notice 3 false none] }) State.reset
    ((State.reset.port .s).fifo = [] ∧ (State.reset.session .s).isOpen = false) ∧
    (s.port .u).fifo = [] ∧ (∀ m ∈ (s.session .u).inFlight, m.marked = false) ∧
    4 ≤ (s.session .u).inFlight.length := by decide

/-! ### Execution and queries -/

theorem witness_UndecodedCommandsReachNoBlock :
    let s := fun l => waiting l State.reset
    (NextIs .u 7 [0x11, 0] [] (s [0x11, 0]) ∧ [(0 : Byte)].length ≠ 0) ∧
    (NextIs .u 7 [0x20, 1, 0x10, 16] [] (s [0x20, 1, 0x10, 16]) ∧ [(1 : Byte), 0x10, 16].length ≠ 4) ∧
    (NextIs .u 7 [0x23, 0] [] (s [0x23, 0]) ∧ [(0 : Byte)].length < 2) ∧
    (NextIs .u 7 [0x23, 0, 1, 5] [] (s [0x23, 0, 1, 5]) ∧
      [(5 : Byte)].length ≠ 2 * (1 : Byte).toNat) ∧
    (NextIs .u 7 [0x31, 0, 0] [] (s [0x31, 0, 0]) ∧ [(0 : Byte), 0].length < 3) ∧
    (NextIs .u 7 [0x31, 0, 0, 0, 9] [] (s [0x31, 0, 0, 0, 9]) ∧
      [(9 : Byte)].length ≠ 2 * (0 : Byte).toNat) ∧
    (NextIs .u 7 [] [] (s []) ∧ codeOf [] ∉ commandCodes) ∧
    (NextIs .u 7 [0x26] [] (s [0x26]) ∧ codeOf [0x26] ∉ commandCodes) := by
  unfold NextIs; decide

/-- One session ready, both ready with the marker at the other, none ready. -/
theorem witness_ServedSession :
    let ready := fun (x : Port) (s : State) => (s.session x).queue ≠ [] ∧ (s.port x).fifo.length < 8
    let s := waiting [0x12] State.reset
    let t := s.putSession .s (s.session .u)
    (ready .u s ∧ ¬ ready (otherPort .u) s) ∧
    (ready .s t ∧ ready (otherPort .s) t ∧ t.lastServed = otherPort .s) ∧
    (¬ ready .u State.reset ∧ ¬ ready .s State.reset) := by decide

theorem witness_QueriesReportAndChangeNothing :
    NextIs .u 7 [0x25, idByte (0 : RingId)] [] (waiting [0x25, 0] (withJob (jobIn .running))) ∧
    NextIs .u 7 [0x35, idByte (15 : SetId)] [] (waiting [0x35, 15] (withJob (jobIn .running))) ∧
    NextIs .u 7 [0x45, idByte (31 : JobId)] [] (waiting [0x45, 31] (withJob (jobIn .running))) ∧
    NextIs .u 7 [0x38] [] (waiting [0x38] (withJob (jobIn .running))) ∧
    NextIs .u 7 [0x12] [] (waiting [0x12] (withJob (jobIn .running))) ∧
    (8 ≤ (8 : Byte).toNat ∧ NextIs .u 7 [0x25, 8] [] (waiting [0x25, 8] State.reset)) ∧
    (16 ≤ (16 : Byte).toNat ∧ NextIs .u 7 [0x35, 16] [] (waiting [0x35, 16] State.reset)) ∧
    (32 ≤ (32 : Byte).toNat ∧ NextIs .u 7 [0x45, 32] [] (waiting [0x45, 32] State.reset)) := by
  unfold NextIs; decide

/-! ### Rings -/

theorem witness_RingCreateChecksAndCreates :
    let s := fun l => waiting l State.reset
    let t := fun l => waiting l (State.reset.putBinding 3 (some 2))
    (NextIs .u 7 [0x20, 8, 0x10, 16, 0] [] (s [0x20, 8, 0x10, 16, 0]) ∧ 8 ≤ (8 : Byte).toNat) ∧
    (NextIs .u 7 [0x20, 0, 0x10, 16, 0] [] (waiting [0x20, 0, 0x10, 16, 0] (withJob (jobIn .ready))) ∧
      (0 : Byte) = idByte (0 : RingId) ∧ ((withJob (jobIn .ready)).ring 0).isSome) ∧
    (NextIs .u 7 [0x20, 7, 4, 16, 0] [] (s [0x20, 7, 4, 16, 0]) ∧ (7 : Byte) = idByte (7 : RingId) ∧
      (s []).ring 7 = none ∧ 4 ≤ (4 : Byte).toNat ∧ (4 : Byte) ≠ 0x10) ∧
    (NextIs .u 7 [0x20, 7, 3, 15, 0] [] (s [0x20, 7, 3, 15, 0]) ∧ source? 3 = some (.channel 3) ∧
      (15 : Byte).toNat + 256 * (0 : Byte).toNat < 16) ∧
    (NextIs .u 7 [0x20, 7, 3, 1, 64] [] (s [0x20, 7, 3, 1, 64]) ∧
      16384 < (1 : Byte).toNat + 256 * (64 : Byte).toNat) ∧
    (NextIs .u 7 [0x20, 7, 3, 16, 0] [] (t [0x20, 7, 3, 16, 0]) ∧
      16 ≤ (16 : Byte).toNat + 256 * (0 : Byte).toNat ∧ (t []).ring 7 = none ∧
      sourceBound (.channel 3) (t [0x20, 7, 3, 16, 0]) = true) ∧
    (NextIs .u 7 [0x20, 7, 0x10, 0, 64] [] (waiting [0x20, 7, 0x10, 0, 64]
        { State.reset with sampleFree := [{ base := 0, size := 16383 }] }) ∧
      (0 : Byte).toNat + 256 * (64 : Byte).toNat ≤ 16384 ∧
      sourceBound .host State.reset = false ∧ 16383 < 16384) ∧
    (NextIs .u 7 [0x20, 7, 0x10, 0, 64] [] (s [0x20, 7, 0x10, 0, 64]) ∧
      source? 0x10 = some .host ∧
      (s []).sampleFree = [] ++ { base := 0, size := 32768 } :: [] ∧ 16384 ≤ 32768) ∧
    (let l : List Extent := [{ base := 0, size := 15 }, { base := 20, size := 16 }]
     NextIs .u 7 [0x20, 7, 0x10, 16, 0] [] (waiting [0x20, 7, 0x10, 16, 0]
        { State.reset with sampleFree := l }) ∧
      l = [{ base := 0, size := 15 }] ++ { base := 20, size := 16 } :: [] ∧
      (∀ d ∈ ([{ base := 0, size := 15 }] : List Extent), d.size < 16)) := by
  unfold NextIs; decide

theorem witness_RingDeleteChecksAndFrees :
    let s := fun (g : Ring) id => waiting [0x21, id] (State.reset.putRing 7 (some g))
    (NextIs .u 7 [0x21, 8] [] (s hostRing 8) ∧ 8 ≤ (8 : Byte).toNat) ∧
    (NextIs .u 7 [0x21, 0] [] (s hostRing 0) ∧ (0 : Byte) = idByte (0 : RingId) ∧
      (s hostRing 0).ring 0 = none) ∧
    (NextIs .u 7 [0x21, 7] [] (s { hostRing with owner := none, orphaned := true } 7) ∧
      (s { hostRing with owner := some .s } 7).ring 7 = some { hostRing with owner := some .s } ∧
      (some Port.s) ≠ some Port.u) ∧
    (NextIs .u 7 [0x21, 7] [] (s hostRing 7) ∧ (7 : Byte) = idByte (7 : RingId) ∧
      (s hostRing 7).ring 7 = some hostRing ∧ hostRing.orphaned = false ∧
      hostRing.owner = some .u ∧ hostRing.refs ≠ 0) ∧
    (NextIs .u 7 [0x21, 7] [] (s { hostRing with refs := 0 } 7) ∧
      (s { hostRing with refs := 0 } 7).ring 7 = some { hostRing with refs := 0 }) := by
  unfold NextIs; decide

theorem witness_EvictionsTakeEachVictimToItsReturnState :
    [(0 : JobId)].Nodup ∧ ∀ j ∈ [(0 : JobId)], ∃ b, (withJob (jobIn .running)).job j = some b ∧
      b.state.pins = true :=
  ⟨by decide, fun j hj => ⟨jobIn .running, by simp_all [job_withJob], rfl⟩⟩

/-- A request that finds no entry of its job, and one that folds at each side of the limit. -/
theorem witness_RequestsMakeOrFold :
    (∀ e ∈ [Entry.fault 1 0 3, .results], e.isFaultOf 0 = false) ∧
    (∀ e ∈ [Entry.overrun 1 3, .results], e.isOverrunOf 0 = false) ∧ 65534 ≤ 65535 ∧ 65535 ≤ 65535 := by
  decide

theorem witness_RingFlushEvictsAndEmpties :
    let s := fun id => waiting [0x22, id] (withJob (jobIn .running))
    let t := waiting [0x22, 0] (State.reset.putRing 0 (some { hostRing with owner := some .s }))
    (NextIs .u 7 [0x22, 8] [] (s 8) ∧ 8 ≤ (8 : Byte).toNat) ∧
    (NextIs .u 7 [0x22, 7] [] (s 7) ∧ (7 : Byte) = idByte (7 : RingId) ∧ (s 7).ring 7 = none) ∧
    (NextIs .u 7 [0x22, 0] [] t ∧ t.ring 0 = some { hostRing with owner := some .s }) ∧
    (NextIs .u 7 [0x22, 0] [] (s 0) ∧ (0 : Byte) = idByte (0 : RingId) ∧
      (s 0).ring 0 = some hostRing ∧ hostRing.orphaned = false ∧ hostRing.owner = some .u) := by
  unfold NextIs; decide

theorem witness_CountdownStepTriggersTheArmedJobs :
    (withJob (jobIn .armed)).job 1 = none ∧
    ((withJob (jobIn .ready)).job 0 = some (jobIn .ready) ∧ (jobIn .ready).armed = false) ∧
    (let b := { armedJob .armed with countdown := 2 }
     (withJob b).job 0 = some b ∧ b.armed = true ∧ b.ring = 0 ∧ 1 < b.countdown) ∧
    (armedJob .armed).countdown ≤ 1 ∧ 3 < (armedJob .armed).par.length ∧
    ((armedJob .armed).dueAt 0 4 = true ∧ (armedJob .armed).state = .armed) ∧
    ((armedJob .running).dueAt 0 4 = true ∧ (armedJob .running).state ≠ .armed ∧
      (armedJob .running).state ≠ .defined) := by decide

theorem witness_UntakenSampleChangesNothing :
    State.reset.binding 3 = none ∧
    let g := { hostRing with source := .channel 3, head := 281474976710655 }
    let s := (State.reset.putBinding 3 (some 0)).putRing 0 (some g)
    s.binding 3 = some 0 ∧ s.ring 0 = some g ∧ 281474976710655 ≤ g.head := by decide

/-- No word in progress, one of 1 bit and one of 16; and periods that are taken. -/
theorem witness_UntakenSample_periods :
    let s := fun n => ({ State.reset with spWord := List.replicate n true } : State)
    (s 0).spWord = [] ∧ (1 ≤ (s 1).spWord.length ∧ (s 16).spWord.length ≤ 16) ∧
    exec (.sampleArrival [{ mark := true, bit := true }]) (s 3) = .next (s 1) :=
  ⟨rfl, by decide, rfl⟩

theorem witness_StreamSampleEvictsWritesAndCounts :
    let g := { hostRing with source := .channel 3, head := 281474976710654 }
    let s := (State.reset.putBinding 3 (some 0)).putRing 0 (some g)
    s.binding 3 = some 0 ∧ s.ring 0 = some g ∧ g.head < 281474976710655 ∧ g.capacity ≤ g.head := by
  decide

/-- Head 20, capacity 16 and pin 16 leave room for 12 samples: 13 are cut short, and the job is not
armed. -/
theorem witness_RingWriteStores :
    let ws := List.replicate 13 (1 : Word16)
    let s := waiting (0x23 :: idByte (0 : RingId) :: BitVec.ofNat 8 ws.length :: bytes16 ws)
      (withJob (jobIn .ready))
    (NextIs .u 7 (0x23 :: idByte (0 : RingId) :: BitVec.ofNat 8 ws.length :: bytes16 ws) [] s ∧
      s.ring 0 = some hostRing ∧ hostRing.orphaned = false ∧ hostRing.owner = some .u ∧
      hostRing.source = .host ∧ hostRing.fill ≤ hostRing.capacity ∧ 1 ≤ ws.length ∧
      ws.length ≤ 120 ∧ pin 0 s = some 16) ∧
    (∀ j b, s.job j = some b → b.ring = 0 → b.armed = false) := by
  refine ⟨by unfold NextIs; decide, ?_⟩
  intro j b hj _
  have h : (if j = 0 then some (jobIn .ready) else none) = some b :=
    (job_withJob (jobIn .ready) j).symm.trans hj
  split at h
  · cases h; rfl
  · cases h

/-- One sample at the last place below the pin, with an armed job on the ring. -/
theorem witness_RingWriteStoresOne :
    let g := { hostRing with head := 31 }
    let s := waiting (0x23 :: idByte (0 : RingId) :: 1 :: leBytes 2 (5 : Word16).toNat)
      ((withJob (armedJob .ready)).putRing 0 (some g))
    (NextIs .u 7 (0x23 :: idByte (0 : RingId) :: 1 :: leBytes 2 (5 : Word16).toNat) [] s ∧
      s.ring 0 = some g ∧ g.orphaned = false ∧ g.owner = some .u ∧ g.source = .host ∧
      g.head < 281474976710655) ∧
    (∀ p, pin 0 s = some p → g.head < p + g.capacity) := by
  refine ⟨by unfold NextIs; decide, ?_⟩
  intro p hp
  have h : some 16 = some p := Eq.trans (by decide) hp
  cases h
  decide

/-- Two samples where there is room for one, on a ring whose armed job pins it. -/
theorem witness_RingWriteStoresOneByOne :
    let g := { hostRing with head := 31 }
    let s := waiting (0x23 :: idByte (0 : RingId) :: 2 :: bytes16 [5, 6])
      ((withJob (armedJob .ready)).putRing 0 (some g))
    NextIs .u 7 (0x23 :: idByte (0 : RingId) :: BitVec.ofNat 8 2 :: bytes16 [5, 6]) [] s ∧
    s.ring 0 = some g ∧ g.orphaned = false ∧ g.owner = some .u ∧ g.source = .host ∧
    (armedJob .ready).armed = true ∧ pin 0 s = some 16 ∧ 31 < 16 + g.capacity ∧ 16 + g.capacity ≤ 32 := by
  unfold NextIs; decide

theorem witness_RingWriteRefuses :
    let s := fun (g : Ring) id n l =>
      waiting (0x23 :: id :: n :: l) ((withJob (jobIn .ready)).putRing 0 (some g))
    let full := { hostRing with head := 281474976710655, refs := 0 }
    (NextIs .u 7 (0x23 :: 8 :: 1 :: bytes16 [5]) [] (s hostRing 8 1 (bytes16 [5])) ∧
      8 ≤ (8 : Byte).toNat ∧ [(5 : Word16)].length ≤ 122) ∧
    (NextIs .u 7 (0x23 :: 7 :: 0 :: bytes16 []) [] (s hostRing 7 0 []) ∧
      (s hostRing 7 0 []).ring 7 = none) ∧
    (NextIs .u 7 (0x23 :: 0 :: 0 :: bytes16 []) [] (s { hostRing with owner := some .s } 0 0 []) ∧
      (s { hostRing with owner := some .s } 0 0 []).ring 0 = some { hostRing with owner := some .s }) ∧
    (NextIs .u 7 (0x23 :: 0 :: 0 :: bytes16 []) [] (s { hostRing with source := .channel 0 } 0 0 []) ∧
      (s { hostRing with source := .channel 0 } 0 0 []).ring 0 =
        some { hostRing with source := .channel 0 }) ∧
    (NextIs .u 7 (0x23 :: 0 :: 0 :: bytes16 []) [] (s hostRing 0 0 []) ∧
      (s hostRing 0 0 []).ring 0 = some hostRing) ∧
    (NextIs .u 7 (0x23 :: 0 :: 1 :: bytes16 [5]) [] (s { hostRing with head := 32 } 0 1 (bytes16 [5])) ∧
      pin 0 (s { hostRing with head := 32 } 0 1 (bytes16 [5])) = some 16 ∧ 16 ≤ 32 ∧ 16 ≤ 32 - 16) ∧
    (NextIs .u 7 (0x23 :: 0 :: 1 :: bytes16 [5]) [] (s full 0 1 (bytes16 [5])) ∧
      (s full 0 1 (bytes16 [5])).ring 0 = some full ∧ full.head = 281474976710655) := by
  unfold NextIs; decide

theorem witness_RingReadReturnsPresentSamples :
    let s := fun id i0 n => waiting [0x24, id, i0, 0, 0, 0, 0, 0, n] (withJob (jobIn .ready))
    (NextIs .u 7 [0x24, 8, 4, 0, 0, 0, 0, 0, 1] [] (s 8 4 1) ∧ 8 ≤ (8 : Byte).toNat) ∧
    (NextIs .u 7 [0x24, 7, 4, 0, 0, 0, 0, 0, 1] [] (s 7 4 1) ∧ (s 7 4 1).ring 7 = none) ∧
    (NextIs .u 7 [0x24, 0, 4, 0, 0, 0, 0, 0, 121] [] (s 0 4 121) ∧ 120 < (121 : Byte).toNat ∧
      (s 0 4 121).ring 0 = some hostRing) ∧
    (NextIs .u 7 [0x24, 0, 3, 0, 0, 0, 0, 0, 1] [] (s 0 3 1) ∧
      leNat [3, 0, 0, 0, 0, 0] < hostRing.head - hostRing.fill) ∧
    (NextIs .u 7 [0x24, 0, 4, 0, 0, 0, 0, 0, 17] [] (s 0 4 17) ∧
      hostRing.head < leNat [4, 0, 0, 0, 0, 0] + (17 : Byte).toNat) ∧
    (NextIs .u 7 [0x24, 0, 4, 0, 0, 0, 0, 0, 16] [] (s 0 4 16) ∧ (16 : Byte) ≠ 0 ∧
      hostRing.head - hostRing.fill ≤ leNat [4, 0, 0, 0, 0, 0] ∧
      leNat [4, 0, 0, 0, 0, 0] + (16 : Byte).toNat ≤ hostRing.head) := by
  unfold NextIs; decide

/-! ### Sets -/

/-- Session U loads set 0, with `next` coefficients taken. -/
def loading (next : Nat) (payload : List Byte) : State :=
  sessionU (fun z => { z with load := some { set := 0, next := next } })
    (waiting payload (State.reset.putCoef 0 (some loadingSet)))

theorem witness_SetBeginChecksAndOpensALoad :
    let s := fun l => waiting l State.reset
    let t := waiting [0x30, 0, 1, 0] (State.reset.putCoef 0 (some readySet))
    (NextIs .u 7 [0x30, 16, 1, 0] [] (s [0x30, 16, 1, 0]) ∧ 16 ≤ (16 : Byte).toNat) ∧
    (NextIs .u 7 [0x30, 15, 1, 0] [] (loading 0 [0x30, 15, 1, 0]) ∧
      (15 : Byte) = idByte (15 : SetId) ∧ ((loading 0 []).session .u).load.isSome) ∧
    (NextIs .u 7 [0x30, 0, 1, 0] [] t ∧ (t.session .u).load = none ∧ (t.coef 0).isSome) ∧
    (NextIs .u 7 [0x30, 15, 0, 0] [] (s [0x30, 15, 0, 0]) ∧ (s []).coef 15 = none ∧
      (0 : Byte).toNat + 256 * (0 : Byte).toNat = 0) ∧
    (NextIs .u 7 [0x30, 15, 1, 16] [] (s [0x30, 15, 1, 16]) ∧
      4096 < (1 : Byte).toNat + 256 * (16 : Byte).toNat) ∧
    (NextIs .u 7 [0x30, 15, 0, 16] []
        (waiting [0x30, 15, 0, 16] { State.reset with coefFree := [{ base := 0, size := 4095 }] }) ∧
      (0 : Byte).toNat + 256 * (16 : Byte).toNat ≤ 4096 ∧ 4095 < 4096) ∧
    (NextIs .u 7 [0x30, 15, 0, 16] [] (s [0x30, 15, 0, 16]) ∧
      (s []).coefFree = [] ++ { base := 0, size := 8192 } :: [] ∧ 4096 ≤ 8192) ∧
    (NextIs .u 7 [0x30, 15, 4, 0] []
        (waiting [0x30, 15, 4, 0]
          { State.reset with coefFree := [{ base := 0, size := 3 }, { base := 9, size := 4 }] }) ∧
      (∀ d ∈ ([{ base := 0, size := 3 }] : List Extent), d.size < 4)) := by
  unfold NextIs; decide

theorem witness_SetDataFollowsTheNextOffset :
    let p := fun (o : Byte) => 0x31 :: o :: 0 :: 2 :: bytes16 [5, 6]
    (NextIs .u 7 (p 0) [] (waiting (p 0) State.reset) ∧
      ((waiting (p 0) State.reset).session .u).load = none ∧ [(5 : Word16), 6].length ≤ 122) ∧
    (NextIs .u 7 [0x31, 0, 0, 0] [] (loading 2 [0x31, 0, 0, 0]) ∧
      ((loading 2 []).session .u).load = some { set := 0, next := 2 } ∧
      (loading 2 []).coef 0 = some loadingSet) ∧
    (NextIs .u 7 (p 3) [] (loading 2 (p 3)) ∧ loadingSet.length < 3 + [(5 : Word16), 6].length) ∧
    (NextIs .u 7 (p 2) [] (loading 2 (p 2)) ∧ 2 + [(5 : Word16), 6].length ≤ loadingSet.length) ∧
    (NextIs .u 7 (p 0) [] (loading 2 (p 0)) ∧ 0 + [(5 : Word16), 6].length ≤ 2) ∧
    (NextIs .u 7 (p 1) [] (loading 2 (p 1)) ∧ 2 < 1 + [(5 : Word16), 6].length ∧
      1 + [(5 : Word16), 6].length ≤ loadingSet.length) := by
  unfold NextIs; decide

/-- A set of one coefficient, all of it taken and its value 5 stored. -/
def loaded (payload : List Byte) : State :=
  { sessionU (fun z => { z with load := some { set := 0, next := 1 } })
      (waiting payload (State.reset.putCoef 0 (some { loadingSet with length := 1 }))) with
    coefMem := [(0, 5)] }

theorem crc_loaded : crc16 ((List.range 1).flatMap fun k =>
    leBytes 2 ((loaded []).readCoef (0 + k)).toNat) = 0xE2FA := by decide +kernel

theorem witness_SetEndChecksTheStoredCoefficients :
    (NextIs .u 7 [0x32, 0, 0] [] (waiting [0x32, 0, 0] State.reset) ∧
      ((waiting [] State.reset).session .u).load = none) ∧
    (NextIs .u 7 [0x32, 0, 0] [] (loading 3 [0x32, 0, 0]) ∧ 3 < loadingSet.length) ∧
    (NextIs .u 7 [0x32, 0, 0] [] (loaded [0x32, 0, 0]) ∧
      ((loaded []).session .u).load = some { set := 0, next := 1 } ∧
      (loaded []).coef 0 = some { loadingSet with length := 1 } ∧
      (0xE2FA : Word16).toNat ≠ (0 : Byte).toNat + 256 * (0 : Byte).toNat) ∧
    (NextIs .u 7 [0x32, 0xFA, 0xE2] [] (loaded [0x32, 0xFA, 0xE2]) ∧
      (0xE2FA : Word16).toNat = (0xFA : Byte).toNat + 256 * (0xE2 : Byte).toNat) := by
  unfold NextIs; decide

theorem witness_SetAbortAndSetDeleteFreeASet :
    let s := fun (v : CoefSet) id => waiting [0x34, id] (State.reset.putCoef 15 (some v))
    (NextIs .u 7 [0x33] [] (waiting [0x33] State.reset) ∧
      ((waiting [0x33] State.reset).session .u).load = none) ∧
    (NextIs .u 7 [0x33] [] (loading 2 [0x33]) ∧
      ((loading 2 [0x33]).session .u).load = some { set := 0, next := 2 } ∧
      (loading 2 [0x33]).coef 0 = some loadingSet) ∧
    (NextIs .u 7 [0x34, 16] [] (s readySet 16) ∧ 16 ≤ (16 : Byte).toNat) ∧
    (NextIs .u 7 [0x34, 0] [] (s readySet 0) ∧ (s readySet 0).coef 0 = none) ∧
    (let v := { readySet with owner := none, phase := .ready true 0 }
     NextIs .u 7 [0x34, 15] [] (s v 15) ∧ (s v 15).coef 15 = some v ∧ v.isOrphaned = true) ∧
    (NextIs .u 7 [0x34, 15] [] (s loadingSet 15) ∧ (s loadingSet 15).coef 15 = some loadingSet ∧
      loadingSet.isOrphaned = false ∧ loadingSet.owner = some .u ∧ loadingSet.phase = .loading) ∧
    (NextIs .u 7 [0x34, 15] [] (s readySet 15) ∧ (15 : Byte) = idByte (15 : SetId) ∧
      (s readySet 15).coef 15 = some readySet ∧ readySet.phase ≠ .loading ∧ readySet.refs ≠ 0) ∧
    (NextIs .u 7 [0x34, 15] [] (s { readySet with refs := 0 } 15)) := by
  unfold NextIs; decide

/-! ### Jobs -/

/-- A JOB_DEFINE of a WHOLE job of 4 samples with stride 4, all else 0. -/
def define (id ring set : Byte) : List Byte :=
  [0x40, id, ring, set, 4, 0, 4, 0, 0, 0, idByte (3 : ClassId), RunMode.whole.code, 0, 0, 0, 0, 16, 31]

theorem witness_JobDefineDefinesAndRedefines :
    let s := fun id => waiting (define id 0 0) (withJob (jobIn .defined))
    (NextIs .u 7 (define 31 0 0) [] (s 31) ∧ (s 31).job 31 = none ∧ (s 31).ring 0 = some hostRing ∧
      hostRing.orphaned = false ∧ (s 31).coef 0 = some readySet ∧
      readySet.phase = .ready false 0x1234 ∧ 1 ≤ (4 : Byte).toNat + 256 * (0 : Byte).toNat ∧
      (4 : Byte).toNat + 256 * (0 : Byte).toNat ≤ readySet.length ∧ (16 : Byte).toNat ≤ 16 ∧
      (31 : Byte).toNat ≤ 31) ∧
    (NextIs .u 7 (define 0 0 0) [] (s 0) ∧ (s 0).job 0 = some (jobIn .defined) ∧
      (jobIn .defined).owner = .u ∧ (jobIn .defined).state = .defined) := by
  unfold NextIs; decide

theorem witness_JobDefineRefusesInOrder :
    let s := fun b id r c => waiting (define id r c) (withJob b)
    let t := fun (g : Ring) (v : CoefSet) c =>
      waiting (define 0 7 c) (((withJob (jobIn .defined)).putRing 7 (some g)).putCoef 15 (some v))
    let orphan := { hostRing with owner := none, orphaned := true }
    let lost := { readySet with owner := none, phase := .ready true 0 }
    (NextIs .u 7 (define 32 0 0) [] (s (jobIn .defined) 32 0 0) ∧ 32 ≤ (32 : Byte).toNat ∧
      ((define 32 0 0).drop 4).length = 14) ∧
    (NextIs .u 7 (define 0 0 0) [] (s { jobIn .defined with owner := .s } 0 0 0) ∧
      (s { jobIn .defined with owner := .s } 0 0 0).job 0 = some { jobIn .defined with owner := .s }) ∧
    (NextIs .u 7 (define 0 0 0) [] (s (jobIn .ready) 0 0 0) ∧
      (s (jobIn .ready) 0 0 0).job 0 = some (jobIn .ready) ∧ (jobIn .ready).state ≠ .defined) ∧
    (NextIs .u 7 (define 0 8 0) [] (s (jobIn .defined) 0 8 0) ∧ 8 ≤ (8 : Byte).toNat) ∧
    (NextIs .u 7 (define 0 7 0) [] (s (jobIn .defined) 0 7 0) ∧
      (s (jobIn .defined) 0 7 0).ring 7 = none) ∧
    (NextIs .u 7 (define 0 7 0) [] (t orphan readySet 0) ∧
      (t orphan readySet 0).ring 7 = some orphan ∧ orphan.orphaned = true) ∧
    (NextIs .u 7 (define 0 7 16) [] (t hostRing readySet 16) ∧ 16 ≤ (16 : Byte).toNat ∧
      (t hostRing readySet 16).ring 7 = some hostRing ∧ hostRing.orphaned = false) ∧
    (NextIs .u 7 (define 0 7 1) [] (t hostRing readySet 1) ∧ (t hostRing readySet 1).coef 1 = none) ∧
    (NextIs .u 7 (define 0 7 15) [] (t hostRing loadingSet 15) ∧
      (t hostRing loadingSet 15).coef 15 = some loadingSet ∧ loadingSet.phase = .loading) ∧
    (NextIs .u 7 (define 0 7 15) [] (t hostRing lost 15) ∧
      (t hostRing lost 15).coef 15 = some lost ∧ lost.isOrphaned = true) := by
  unfold NextIs; decide

/-- Checks 9 and 10, each at the boundary of its range: the ring of 16 samples and the set of 4
coefficients admit a length of 4, not of 5. -/
theorem witness_JobDefineRefusesParameters :
    let p := fun (l pr mode psh osh : Byte) =>
      [0x40, 0, 0, 0] ++ [l, 0, 4, 0, 0, 0, pr, mode, 0, 0, 0, 0, psh, osh]
    let s := fun l pr mode psh osh => waiting (p l pr mode psh osh) (withJob (jobIn .defined))
    (NextIs .u 7 (p 0 0 0 0 0) [] (s 0 0 0 0 0) ∧ NextIs .u 7 (p 5 0 0 0 0) [] (s 5 0 0 0 0) ∧
      readySet.length < (5 : Byte).toNat + 256 * (0 : Byte).toNat ∧ readySet.phase ≠ .loading ∧
      readySet.isOrphaned = false ∧ hostRing.orphaned = false) ∧
    (NextIs .u 7 (p 4 4 0 0 0) [] (s 4 4 0 0 0) ∧ 3 < (4 : Byte).toNat ∧
      (4 : Byte).toNat + 256 * (0 : Byte).toNat ≤ readySet.length ∧
      (4 : Byte).toNat + 256 * (0 : Byte).toNat ≤ hostRing.capacity) ∧
    (NextIs .u 7 (p 4 3 2 0 0) [] (s 4 3 2 0 0) ∧ (2 : Byte) ≠ RunMode.whole.code ∧
      (2 : Byte) ≠ RunMode.segmented.code) ∧
    (NextIs .u 7 (p 4 3 1 17 0) [] (s 4 3 1 17 0) ∧ 16 < (17 : Byte).toNat) ∧
    (NextIs .u 7 (p 4 3 1 16 32) [] (s 4 3 1 16 32) ∧ 31 < (32 : Byte).toNat) := by
  unfold NextIs; decide

/-- The one job of the clauses above, DEFINED and of session U, is what their universal premise asks. -/
theorem witness_JobDefineRefusesInOrder_owned :
    ∀ b, (waiting (define 0 8 0) (withJob (jobIn .defined))).job 0 = some b →
      b.owner = .u ∧ b.state = .defined := by
  intro b hb
  have h : some (jobIn .defined) = some b := hb
  cases h
  decide

/-- A command with a job id as its one argument, for a job of session U in a state. -/
def onJob (code id : Byte) (b : Job) : State := waiting [code, id] (withJob b)

/-- The premises that JOB_ARM, JOB_START, JOB_CANCEL and JOB_DELETE share: each of their refusals, and the job owned. -/
theorem witness_JobCommandsRefuse :
    ∀ code ∈ ([0x41, 0x42, 0x43, 0x44] : List Byte),
      (NextIs .u 7 [code, 32] [] (onJob code 32 (jobIn .armed)) ∧ 32 ≤ (32 : Byte).toNat) ∧
      (NextIs .u 7 [code, 31] [] (onJob code 31 (jobIn .armed)) ∧ (31 : Byte) = idByte (31 : JobId) ∧
        (onJob code 31 (jobIn .armed)).job 31 = none) ∧
      (NextIs .u 7 [code, 0] [] (onJob code 0 { jobIn .armed with owner := .s }) ∧
        (onJob code 0 { jobIn .armed with owner := .s }).job 0 = some { jobIn .armed with owner := .s }) ∧
      (NextIs .u 7 [code, 0] [] (onJob code 0 (jobIn .armed)) ∧
        (onJob code 0 (jobIn .armed)).job 0 = some (jobIn .armed) ∧ (jobIn .armed).owner = .u) := by
  unfold NextIs; decide

theorem witness_JobArmLoadsTheCountdown :
    let still := { jobIn (.held record0) with par := { (jobIn .defined).par with stride := 0 } }
    (NextIs .u 7 [0x41, 0] [] (onJob 0x41 0 still) ∧ still.state ≠ .armed ∧ still.par.stride = 0) ∧
    (NextIs .u 7 [0x41, 0] [] (onJob 0x41 0 (jobIn .defined)) ∧ (jobIn .defined).state ≠ .armed ∧
      (jobIn .defined).par.stride ≠ 0 ∧ (jobIn .defined).par.phase = 0) ∧
    (NextIs .u 7 [0x41, 0] [] (onJob 0x41 0 (jobIn .running)) ∧ (jobIn .running).state ≠ .armed) := by
  unfold NextIs; decide

theorem witness_JobStartFiresOnTheNewestSamples :
    let low := fun b => (onJob 0x42 0 b).putRing 0 (some { hostRing with fill := 3 })
    (NextIs .u 7 [0x42, 0] [] (onJob 0x42 0 (jobIn .running)) ∧ (jobIn .running).state ≠ .defined ∧
      (jobIn .running).state ≠ .armed) ∧
    (NextIs .u 7 [0x42, 0] [] (low (jobIn .defined)) ∧
      (low (jobIn .defined)).ring 0 = some { hostRing with fill := 3 } ∧
      3 < (jobIn .defined).par.length) ∧
    (NextIs .u 7 [0x42, 0] [] (onJob 0x42 0 (jobIn .defined)) ∧ (jobIn .defined).state = .defined ∧
      (onJob 0x42 0 (jobIn .defined)).ring 0 = some hostRing ∧
      (jobIn .defined).par.length ≤ hostRing.fill) := by
  unfold NextIs; decide

theorem witness_JobCancelEndsTheFire :
    ∀ st ∈ ([.defined, .armed, .ready, .running, .parked { acc := 1, next := 64, sat := false },
        .held record0] : List JobState),
      NextIs .u 7 [0x43, 0] [] (onJob 0x43 0 (jobIn st)) ∧
      (onJob 0x43 0 (jobIn st)).job 0 = some (jobIn st) ∧ (jobIn st).owner = .u := by
  unfold NextIs; decide

/-- A job whose one record leaves the queue empty, and one whose records leave room for a held one. -/
theorem witness_JobDeleteRemovesTheJob :
    let s := sessionU (fun z => { z with results := [record0] }) (onJob 0x44 0 (jobIn .running))
    let t := sessionU (fun z => { z with results := List.replicate 32 record0, heldOrder := [1] })
      ((onJob 0x44 0 (jobIn .running)).putJob 1 (some (jobIn (.held { record0 with job := 1 }))))
    (NextIs .u 7 [0x44, idByte (0 : JobId)] [] s ∧ s.job 0 = some (jobIn .running) ∧
      (jobIn .running).owner = .u) ∧
    (NextIs .u 7 [0x44, idByte (0 : JobId)] [] t ∧ t.job 0 = some (jobIn .running) ∧
      (t.session .u).heldOrder ≠ []) := by
  unfold NextIs; decide

theorem witness_JobWatchSetsAndClears :
    let p := fun (id action h : Byte) => [0x46, id, action, 0, 0, 0, 0, h, 0, 0, 0]
    let s := fun id action h => waiting (p id action h) (withJob (jobIn .running))
    (NextIs .u 7 (p 32 0 1) [] (s 32 0 1) ∧ 32 ≤ (32 : Byte).toNat) ∧
    (NextIs .u 7 (p 31 0 1) [] (s 31 0 1) ∧ (s 31 0 1).job 31 = none) ∧
    (NextIs .u 7 (p 0 0 1) [] (waiting (p 0 0 1) (withJob { jobIn .running with owner := .s })) ∧
      (Port.s : Port) ≠ .u) ∧
    (NextIs .u 7 (p 0 0 1) [] (s 0 0 1) ∧ (s 0 0 1).job 0 = some (jobIn .running)) ∧
    (NextIs .u 7 (p 0 1 1) [] (s 0 1 1) ∧ intOf32 [0, 0, 0, 0] < intOf32 [1, 0, 0, 0]) ∧
    (NextIs .u 7 (p 0 1 0) [] (s 0 1 0) ∧ intOf32 [0, 0, 0, 0] ≤ intOf32 [0, 0, 0, 0]) ∧
    (NextIs .u 7 (p 0 2 1) [] (s 0 2 1) ∧ (2 : Byte) ≠ 0x00 ∧ (2 : Byte) ≠ 0x01) := by
  unfold NextIs; decide

/-! ### Runs and results -/

/-- A run of job 0 with `next` products added. -/
def run0 (next : Nat) : Run := { job := 0, acc := 1600, next := next, sat := false }

/-- Exact at both limits, and clamped one step past each. -/
theorem witness_RunArithmeticRoundsAndClamps :
    (let top := { run0 0 with acc := 2 ^ 47 - 2 }
     top.acc + (1 : Word16).toInt * (1 : Word16).toInt ≤ 2 ^ 47 - 1 ∧
     2 ^ 47 - 1 < top.acc + (2 : Word16).toInt * (1 : Word16).toInt) ∧
    (let low := { run0 0 with acc := -2 ^ 47 }
     (-2 ^ 47 : Int) ≤ low.acc + (0 : Word16).toInt * (1 : Word16).toInt ∧
     low.acc + (-1 : Word16).toInt * (1 : Word16).toInt < -2 ^ 47) ∧
    ((withJob (jobIn .running)).ring (jobIn .running).ring = some hostRing ∧
     (withJob (jobIn .running)).coef (jobIn .running).set = some readySet) := by decide

/-- A busy PSU, an empty queue, a READY job at the head of class 1 and a PARKED one. -/
theorem witness_StartStep :
    let s := fun st => (withJob (jobIn st)).putClass 1 [0]
    let p : Partial := { acc := 5, next := 64, sat := true }
    ({ State.reset with psu := some (run0 0) } : State).psu ≠ none ∧ (∀ c, State.reset.cls c = []) ∧
    ((s .ready).psu = none ∧ (s .ready).cls 1 = 0 :: [] ∧ (∀ d, 1 < d → (s .ready).cls d = []) ∧
      (s .ready).job 0 = some (jobIn .ready) ∧ (jobIn .ready).state = .ready) ∧
    ((s (.parked p)).job 0 = some (jobIn (.parked p)) ∧ (jobIn (.parked p)).state = .parked p) := by
  decide

theorem witness_SegmentEndParksForAHigherClass :
    let s := { withJob longJob with psu := some (run0 0) }
    s.psu = some (run0 0) ∧ s.job (run0 0).job = some longJob ∧ longJob.par.mode = .segmented ∧
    (run0 0).next + 64 < longJob.par.length ∧
    (∀ d, longJob.par.priority < d → s.cls d = []) ∧
    (longJob.par.priority < 2 ∧ (s.putClass 2 [1]).cls 2 ≠ []) := by decide

theorem witness_RunEndQueuesOrHoldsTheRecord :
    let s := { withJob (jobIn .running) with psu := some (run0 0) }
    let t := { withJob longJob with psu := some (run0 1) }
    let full := sessionU (fun z => { z with results := List.replicate 32 record0 }) s
    (s.psu = some (run0 0) ∧ s.job 0 = some (jobIn .running) ∧ (jobIn .running).par.mode = .whole ∧
      (s.session .u).results.length < 32) ∧
    (t.psu = some (run0 1) ∧ t.job 0 = some longJob ∧ longJob.par.length ≤ (run0 1).next + 64) ∧
    (full.psu = some (run0 0) ∧ 32 ≤ (full.session .u).results.length) := by decide

theorem witness_WatchOutcomeFollowsTheTable :
    classify 501 watch0.low watch0.high = watch0.current ∧
    (classify 500 watch0.low watch0.high ≠ watch0.current ∧ [].any (Entry.isAlertOf 9) = false) ∧
    ([Entry.alert 9 .above 501 7 65535] = [] ++ .alert 9 .above 501 7 65535 :: [] ∧
      ([] ++ []).any (Entry.isAlertOf 9) = false ∧
      classify (-500) watch0.low watch0.high = watch0.reported ∧
      classify (-501) watch0.low watch0.high ≠ watch0.reported ∧
      classify (-501) watch0.low watch0.high ≠ watch0.current ∧ 65535 ≤ 65535) := by decide

theorem witness_HeldRecordsMoveInRunEndOrder :
    let s := sessionU (fun z => { z with heldOrder := [0], results := List.replicate 31 record0 })
      (withJob (jobIn (.held record0)))
    (s.session .u).heldOrder.Nodup ∧
    ∀ j ∈ (s.session .u).heldOrder, ∃ b r, s.job j = some b ∧ b.state = .held r := by
  refine ⟨by decide, ?_⟩
  intro j hj
  have h : j ∈ [(0 : JobId)] := hj
  rw [List.mem_singleton.mp h]
  exact ⟨jobIn (.held record0), record0, by decide, rfl⟩

theorem witness_FetchRemovesTheOldestRecords :
    ∀ n ∈ ([0, 1, 16, 17] : List Byte),
      NextIs .u 7 [0x50, n] [] (waiting [0x50, n] State.reset) ∧
      (n = 0 ∨ 16 < n.toNat ∨ (n ≠ 0 ∧ n.toNat ≤ 16)) := by
  unfold NextIs; decide

theorem witness_ByeRepliesAndTearsDown :
    NextIs .u 7 [0x11] [] (waiting [0x11] (withJob (jobIn .running))) := by
  unfold NextIs; decide

/-! ### Reception, acceptance, acknowledgement -/

/-- A frame of one payload byte. -/
def frame (kind : Byte) : Frame := { kind := kind, seq := 9, payload := [0x12] }

theorem witness_ReceiverTakesEachByteInItsState :
    let full := List.replicate 247 (0 : Byte)
    (State.reset.port .u).rx = .hunt ∧ ((0xA5 : Byte) = 0xA5 ∧ (0xA4 : Byte) ≠ 0xA5) ∧
    ((receiving (.header []) State.reset).port .u).rx = .header [] ∧
    ((receiving (.header [1]) State.reset).port .u).rx = .header [1] ∧
    (((receiving (.header [1, 2]) State.reset).port .u).rx = .header [1, 2] ∧
      (248 : Byte) ≠ 0 ∧ (248 : Byte).toNat ≤ 248) ∧
    (((receiving (.payload 1 2 248 full) State.reset).port .u).rx = .payload 1 2 248 full ∧
      (248 : Byte).toNat ≤ full.length + 1 ∧ full.tail.length + 1 < (248 : Byte).toNat) ∧
    ((receiving (.check (frame 1) none) State.reset).port .u).rx = .check (frame 1) none := by
  decide +kernel

/-- Port S presents the filler byte, has a current frame, or asks. -/
theorem witness_TransmittersAskAndPortSExchanges :
    let o : Outbound := { frame := frame 2, position := 6 }
    let reply := State.reset.modPort .s fun y => { y with fifo := [frame 2] }
    let at_ := fun (t : TransmitterS) => ({ State.reset with txS := t } : State)
    ((at_ { selected := false, current := some o, filler := false }).txS.current = some o ∧
      o.position < o.frame.size) ∧
    ((at_ { selected := true, current := none, filler := true }).txS.filler = true ∧
      (at_ { selected := true, current := none, filler := true }).txS.current = none) ∧
    (reply.txS.current = none ∧ reply.txS.filler = false ∧
      arbiter .s reply = (some (frame 2), State.reset)) ∧
    (State.reset.txS.current = none ∧ State.reset.txS.filler = false ∧
      State.reset.txS.selected = false ∧ arbiter .s State.reset = (none, State.reset)) ∧
    (let s := at_ { selected := true, current := some o, filler := false }
     s.txS.selected = true ∧ sdoByte s = o.frame.bytes[6]? ∧ (o.frame.bytes[6]?).isSome) ∧
    sdoByte (at_ { selected := true, current := none, filler := true }) = some 0x00 ∧
    State.reset.txU = none := by decide +kernel

/-- The check bytes of the frames with KIND 01h to 05h, SEQ 9 and the one payload byte 12h. -/
theorem witness_FramesEndByLengthErrorOrResolution :
    let held := fun (k lo : Byte) => receiving (.check (frame k) (some lo)) State.reset
    let good := fun (k lo last : Byte) => lo.toNat + 256 * last.toNat = (crc16 (frame k).covered).toNat
    (((receiving (.header [1, 2]) State.reset).port .u).rx = .header [1, 2] ∧ 248 < (249 : Byte).toNat) ∧
    ((held 1 0xA7).port .u).rx = .check (frame 1) (some 0xA7) ∧ ¬ good 1 0xA7 0x6C ∧
    good 1 0xA7 0x6D ∧ good 2 0x7B 0xF6 ∧ good 3 0xCF 0x80 ∧ good 4 0xE2 0xD1 ∧ good 5 0x56 0xA7 ∧
    (5 : Byte) ∉ ([0x01, 0x02, 0x03, 0x04] : List Byte) := by decide +kernel

/-- An ACK for the older of two notices in flight, at count 500: the younger was sent at 3, so with a
timeout of 100 its timer is overdue; sent at 450, it is not; an ACK of another number makes no progress. -/
theorem witness_AckSetsAnOverdueTimer :
    let ack : Byte → Frame := fun q => { kind := 0x04, seq := q, payload := [] }
    let s := fun q lo at_ => receiving (.check (ack q) (some lo)) { sessionU (fun z => { z with
      isOpen := true, timeout := 100
      inFlight := [notice 0 false (some 450), notice 1 false (some at_)], timer := some 550 })
        State.reset with ms := 500 }
    let t := fun q lo at_ => finish (arriveAck .u (ack q) (received .u (s q lo at_)))
    ((0x5C : Byte).toNat + 256 * (0x10 : Byte).toNat = (crc16 (ack 0).covered).toNat ∧
      (ack 0).payload = [] ∧ ((received .u (s 0 0x5C 3)).session .u).isOpen = true ∧
      (∃ n ∈ ((received .u (s 0 0x5C 3)).session .u).inFlight, n.frame.seq = (ack 0).seq) ∧
      ((t 0 0x5C 3).session .u).timer = some 103 ∧ 103 ≤ (t 0 0x5C 3).ms) ∧
    (((t 0 0x5C 450).session .u).timer = some 550 ∧ (t 0 0x5C 450).ms < 550) ∧
    ¬ (∃ n ∈ ((received .u (s 7 0 3)).session .u).inFlight, n.frame.seq = (ack 7).seq) ∧
    ((finish (arriveAck .u (ack 1) (received .u (s 1 0 3)))).session .u).timer = none := by
  decide +kernel

/-- Session U of 08 Table 8-3 in part: expected sequence 39, commands 35 to 38 queued, 34 replied to. -/
def table83 (queued : Nat) : State :=
  sessionU (fun z => { z with
    isOpen := true, expected := 39
    queue := [35, 36, 37, 38].take queued |>.map fun q => { seq := q, payload := [0x12] }
    cache := [replyFrame 34 .ok 0x12 []] }) State.reset

theorem witness_CommandsAreAcceptedInSequence :
    let f : Byte → Frame := fun q => { kind := 0x01, seq := q, payload := [0x12] }
    let z := fun n => (table83 n).session .u
    codeOf (f 39).payload ≠ 0x10 ∧ (State.reset.session .u).isOpen = false ∧ (z 4).isOpen = true ∧
    ((f 39).seq = (z 4).expected ∧ 4 ≤ (z 4).queue.length) ∧
    ((f 39).seq = (z 3).expected ∧ (z 3).queue.length < 4) ∧
    ((f 36).seq ≠ (z 4).expected ∧ ∃ c ∈ (z 4).queue, c.seq = (f 36).seq) ∧
    ((f 34).seq ≠ (z 4).expected ∧ (∀ c ∈ (z 4).queue, c.seq ≠ (f 34).seq) ∧
      (z 4).cache = [] ++ replyFrame 34 .ok 0x12 [] :: []) ∧
    ((f 26).seq ≠ (z 4).expected ∧ (∀ c ∈ (z 4).queue, c.seq ≠ (f 26).seq) ∧
      ∀ c ∈ (z 4).cache, c.seq ≠ (f 26).seq) := by decide

/-- Each case of a HELLO: the check bytes are those of KIND 01h, the sequence number and the payload. -/
theorem witness_HelloOpensTheSession :
    let good := fun (q : Byte) (l : List Byte) (lo last : Byte) =>
      lo.toNat + 256 * last.toNat =
        (crc16 (Frame.covered { kind := 0x01, seq := q, payload := l })).toNat
    let held := fun (q : Byte) (l : List Byte) (lo : Byte) =>
      receiving (.check { kind := 0x01, seq := q, payload := l } (some lo)) State.reset
    let full := (held 0 [0x10, 0, 0, 1] 0x2F).modPort .u fun y =>
      { y with fifo := List.replicate 8 (frame 2) }
    (((held 0 [0x10, 0, 0, 1] 0x2F).port .u).rx =
        .check { kind := 0x01, seq := 0, payload := [0x10, 0, 0, 1] } (some 0x2F) ∧
      good 0 [0x10, 0, 0, 1] 0x2F 0xCB ∧ codeOf [0x10, 0, 0, 1] = 0x10) ∧
    ((full.port .u).rx = .check { kind := 0x01, seq := 0, payload := [0x10, 0, 0, 1] } (some 0x2F) ∧
      ¬ ((received .u full).port .u).fifo.length < 8) ∧
    ((received .u (held 0 [0x10, 0, 0] 0x0F)).port .u).fifo.length < 8 ∧
    (good 0 [0x10, 0, 0] 0x0F 0x93 ∧ [(0x10 : Byte), 0, 0].length ≠ 4) ∧
    (good 5 [0x10, 0, 0, 1] 0x2E 0x88 ∧ (5 : Byte) ≠ 0) ∧
    (good 0 [0x10, 1, 0, 1] 0x1F 0xFC ∧ (1 + 256 * 0) % 10 ≠ 0) ∧
    (good 0 [0x10, 0xF2, 3, 1] 0x4E 0x13 ∧ (0xF2 + 256 * 3) % 10 = 0 ∧ 1000 < 0xF2 + 256 * 3) ∧
    (good 0 [0x10, 0xE8, 3, 2] 0x8F 0xA7 ∧ 1 < (2 : Byte).toNat) ∧
    (good 0 [0x10, 0xE8, 3, 1] 0xEC 0x97 ∧ (0xE8 + 256 * 3) % 10 = 0 ∧ 0xE8 + 256 * 3 ≤ 1000) ∧
    (good 0 [0x10, 10, 0, 1] 0xEE 0x0C ∧ 10 % 10 = 0) := by decide +kernel

theorem witness_AckIsCumulative :
    let ack : Byte → Frame := fun q => { kind := 0x04, seq := q, payload := [] }
    let s := sessionU (fun z => { z with isOpen := true
                                         inFlight := [notice 0 false (some 3), notice 1 false (some 4),
                                           notice 2 true none] }) State.reset
    ((ack 1).payload = [] ∧ (s.session .u).isOpen = true ∧
      (s.session .u).inFlight =
        [notice 0 false (some 3)] ++ notice 1 false (some 4) :: [notice 2 true none] ∧
      (∀ m ∈ [notice 0 false (some 3)], m.frame.seq ≠ (ack 1).seq) ∧
      (notice 1 false (some 4)).frame.seq = (ack 1).seq) ∧
    (frame 4).payload ≠ [] ∧ (State.reset.session .s).isOpen = false ∧
    (∀ m ∈ (s.session .u).inFlight, m.frame.seq ≠ (ack 3).seq) := by decide

/-! ### Links, transmission and time -/

theorem witness_LinkConditionsDiscardAPartialFrame :
    let s := receiving (.header []) State.reset
    let o : Outbound := { frame := frame 3, position := 7 }
    let ended : State := { State.reset with txS := { selected := true, current := some o, filler := false } }
    (s.port .u).rx ≠ .hunt ∧ (State.reset.port .u).rx = .hunt ∧
    ((State.reset.modPort .s fun y => { y with rx := .header [] }).port .s).rx ≠ .hunt ∧
    (State.reset.port .s).rx = .hunt ∧ State.reset.txS.selected = false ∧
    (select State.reset).txS.selected = true ∧ ended.txS.selected = true ∧ sentWhole ended = true := by
  decide

/-- No notice timer runs, so the gap falls due first. -/
theorem witness_LinkConditions_gapFirst :
    let s := receiving (.header []) State.reset
    ∀ x t, ((endS s).session x).timer = some t → s.lastByteAt + 6 ≤ t := by
  intro s x t h
  have h0 : ((endS s).session x).timer = none := by cases x <;> rfl
  rw [h0] at h
  cases h

/-- The gap has fallen due. -/
theorem witness_LinkConditions_gapPast :
    ({ receiving (.header []) State.reset with ms := 6 } : State).lastByteAt + 6 ≤ 6 := by decide

theorem witness_LinkResetTearsDownSessionU :
    let s := fun u => ({ State.reset with urx := u } : State)
    ((s (.atSpace 0 0)).urx = .atSpace 0 0 ∧
      gapDue (s (.atSpace 0 0)) = none ∧ ∀ x, ((endS (s (.atSpace 0 0))).session x).timer = none) ∧
    ((s (.atSpace 0 0)).ms < 0 + 10 ∧ 0 + 10 ≤ ({ s (.atSpace 0 0) with ms := 10 } : State).ms) ∧
    (s (.broken 3)).urx = .broken 3 ∧ State.reset.urx = .following := by
  refine ⟨⟨rfl, rfl, fun x => ?_⟩, by decide⟩
  cases x <;> rfl

theorem witness_TransmissionEndStampsTheNotice :
    let o : Outbound := { frame := frame 3, position := 7 }
    ({ State.reset with txU := some (frame 3) } : State).txU = some (frame 3) ∧
    ({ State.reset with txS := { selected := true, current := some o, filler := false } } : State).txS.current =
      some o ∧ o.frame = frame 3 ∧ (frame 3).payload.length + 6 ≤ o.position ∧
    State.reset.txS.current = none := by decide

/-- Session U with one notice in flight, its timer at 103, and a retry count. -/
def timerRunning (retry : Nat) : State :=
  sessionU (fun z => { z with
    isOpen := true, timeout := 100, inFlight := [notice 0 false (some 3)], retry := retry
    timer := some 103 }) State.reset

theorem witness_TimerExpiryMarksOrLosesTheSession :
    ((endS (timerRunning 2)).session .u).timer = some 103 ∧ ((endS (timerRunning 3)).session .u).timer = some 103 ∧
    103 ≤ ({ timerRunning 2 with ms := 103 } : State).ms ∧
    ((timerRunning 2).session .u).retry < 3 ∧ 3 ≤ ((timerRunning 3).session .u).retry ∧
    ((timerRunning 3).session .u).isOpen = true ∧ gapDue (timerRunning 3) = none ∧
    ((endS (timerRunning 3)).session (otherPort .u)).timer = none := by decide

/-- Nothing else of those states is due before count 103. -/
theorem witness_TimerExpiry_first :
    ∀ n, (∀ t', ((endS (timerRunning n)).session (otherPort .u)).timer = some t' → 103 ≤ t') ∧
      (∀ t', gapDue (timerRunning n) = some t' → 103 ≤ t') := by
  intro n
  refine ⟨fun t h => ?_, fun t h => ?_⟩
  · have h0 : (none : Option Nat) = some t := h
    cases h0
  · have h0 : (none : Option Nat) = some t := h
    cases h0

/-! ### A state that meets every law -/

/-- The RUNNING, armed job of the busy state, with a watch. -/
def busyJob : Job := { armedJob .running with watch := some watch0 }

/-- Session U is OPEN, its one job runs, a notice of it is being sent, and a RUN_END waits. -/
def busy : State :=
  { sessionU (fun z => { z with
      isOpen := true, expected := 8, timeout := 100, resultsNotify := true
      queue := [{ seq := 7, payload := [0x12] }], cache := [replyFrame 6 .ok 0x12 []]
      results := [record0], pendingList := [.alert 0 .above 700 0 0, .results]
      inFlight := [notice 0 false none], noticeSeq := 1 }) (withJob busyJob) with
    psu := some (run0 0)
    txU := some (notice 0 false none).frame
    sampleMem := [(3, 5)]
    sampleFree := [{ base := 16, size := 32752 }]
    coefFree := [{ base := 4, size := 8188 }]
    pending := [.runEnd] }

theorem job_busy (j : JobId) : busy.job j = if j = 0 then some busyJob else none :=
  job_withJob busyJob j

theorem ring_busy (r : RingId) : busy.ring r = if r = 0 then some hostRing else none := by
  revert r; decide

theorem coef_busy (c : SetId) : busy.coef c = if c = 0 then some readySet else none := by
  revert c; decide

theorem binding_busy (c : ChannelId) : busy.binding c = none := by revert c; decide

theorem cls_busy (c : ClassId) : busy.cls c = [] := by revert c; decide

/-- Every job of the busy state is the one job. -/
theorem job_busy_eq {j : JobId} {b : Job} (h : busy.job j = some b) : j = 0 ∧ b = busyJob := by
  rw [job_busy] at h
  split at h
  · cases h; exact ⟨‹_›, rfl⟩
  · cases h

theorem ring_busy_eq {r : RingId} {g : Ring} (h : busy.ring r = some g) : r = 0 ∧ g = hostRing := by
  rw [ring_busy] at h
  split at h
  · cases h; exact ⟨‹_›, rfl⟩
  · cases h

theorem coef_busy_eq {c : SetId} {v : CoefSet} (h : busy.coef c = some v) : c = 0 ∧ v = readySet := by
  rw [coef_busy] at h
  split at h
  · cases h; exact ⟨‹_›, rfl⟩
  · cases h

theorem busy_step : ∃ t, step busy = .next t := ⟨_, rfl⟩

theorem busy_SchedulerLaw : SchedulerLaw busy where
  nodup := by simp [cls_busy]
  queued := by
    intro c j
    simp only [cls_busy, List.not_mem_nil, false_iff]
    rintro ⟨b, hb, hw, -⟩
    obtain ⟨-, rfl⟩ := job_busy_eq hb
    cases hw
  running := by
    intro j
    constructor
    · rintro ⟨b, hb, -⟩
      exact ⟨run0 0, rfl, (job_busy_eq hb).1.symm⟩
    · rintro ⟨run, hr, rfl⟩
      cases hr
      exact ⟨busyJob, rfl, rfl⟩
  parkedFirst := by
    intro j b p hb hs
    obtain ⟨-, rfl⟩ := job_busy_eq hb
    cases hs
  runningAlone := by
    intro j b k d p hb _ hd hs
    obtain ⟨-, rfl⟩ := job_busy_eq hd
    cases hs
  settled := fun _ => cls_busy

theorem busy_ArmedLaw : ArmedLaw busy := by
  intro j b hb
  obtain ⟨-, rfl⟩ := job_busy_eq hb
  decide

theorem busy_ReferenceLaw : ReferenceLaw busy where
  ringRefs := by
    intro r g hg
    obtain ⟨rfl, rfl⟩ := ring_busy_eq hg
    decide
  ringNamed := by
    intro j b hb
    obtain ⟨-, rfl⟩ := job_busy_eq hb
    exact ⟨hostRing, by decide⟩
  setRefs := by
    intro c v hv
    obtain ⟨rfl, rfl⟩ := coef_busy_eq hv
    decide
  setNamed := by
    intro j b hb
    obtain ⟨-, rfl⟩ := job_busy_eq hb
    exact ⟨readySet, by decide⟩
  loads := by
    intro x l hl
    cases x <;> cases hl
  loading := by
    intro c v hv hp
    obtain ⟨-, rfl⟩ := coef_busy_eq hv
    cases hp
  ringOrphan := by
    intro r g hg
    obtain ⟨-, rfl⟩ := ring_busy_eq hg
    decide
  setOrphan := by
    intro c v hv
    obtain ⟨-, rfl⟩ := coef_busy_eq hv
    decide

theorem busy_WindowLaw : WindowLaw busy where
  ringFill := by
    intro r g hg
    obtain ⟨-, rfl⟩ := ring_busy_eq hg
    decide
  present := by
    intro j b g hb _ hg
    obtain ⟨-, rfl⟩ := job_busy_eq hb
    obtain ⟨-, rfl⟩ := ring_busy_eq hg
    decide

theorem busy_BindingLaw : BindingLaw busy := by
  intro c r
  simp only [binding_busy, reduceCtorEq, false_iff]
  rintro ⟨g, hg, hs⟩
  obtain ⟨-, rfl⟩ := ring_busy_eq hg
  cases hs

theorem busy_ClosedLaw : ClosedLaw busy := by
  intro x hx
  cases x with
  | u => cases hx
  | s =>
    refine ⟨?_, ?_, ?_, rfl, rfl, rfl, rfl, rfl, rfl, rfl⟩
    · intro j b hb
      obtain ⟨-, rfl⟩ := job_busy_eq hb
      decide
    · intro r g hg
      obtain ⟨-, rfl⟩ := ring_busy_eq hg
      decide
    · intro c v hv
      obtain ⟨-, rfl⟩ := coef_busy_eq hv
      decide

theorem busy_ExtentLaw : ExtentLaw busy where
  sampleOrdered := by show (0 : Nat) < 32752; decide
  sampleOnce := by
    intro a
    have h1 : allRings = [0, 1, 2, 3, 4, 5, 6, 7] := by decide
    simp only [ringCover, freeCover, h1, ring_busy, show busy.sampleFree =
      [{ base := 16, size := 32752 }] from rfl, List.filter_cons, hostRing]
    by_cases h : a < 16
    · have h2 : ¬ 16 ≤ a := by omega
      have h3 : a < 32768 := by omega
      simp [h, h2, h3, Config.sampleMemorySize]
    · have h2 : 16 ≤ a := by omega
      by_cases h3 : a < 32768 <;> simp [h, h2, h3, Config.sampleMemorySize]
  coefOrdered := by show (0 : Nat) < 8188; decide
  coefOnce := by
    intro a
    have h1 : allSets = [0, 1, 2, 3, 4, 5, 6, 7, 8, 9, 10, 11, 12, 13, 14, 15] := by decide
    simp only [setCover, freeCover, h1, coef_busy, show busy.coefFree =
      [{ base := 4, size := 8188 }] from rfl, List.filter_cons, readySet]
    by_cases h : a < 4
    · have h2 : ¬ 4 ≤ a := by omega
      have h3 : a < 8192 := by omega
      simp [h, h2, h3, Config.coefMemorySize]
    · have h2 : 4 ≤ a := by omega
      by_cases h3 : a < 8192 <;> simp [h, h2, h3, Config.coefMemorySize]
  ringSize := by
    intro r g hg
    obtain ⟨-, rfl⟩ := ring_busy_eq hg
    decide
  setSize := by
    intro c v hv
    obtain ⟨-, rfl⟩ := coef_busy_eq hv
    decide

theorem busy_HeldLaw : HeldLaw busy where
  nodup := by intro x; cases x <;> exact List.nodup_nil
  listed := by
    intro x j
    have h0 : (busy.session x).heldOrder = [] := by cases x <;> rfl
    simp only [h0, List.not_mem_nil, false_iff]
    rintro ⟨b, r, hb, -, hs⟩
    obtain ⟨-, rfl⟩ := job_busy_eq hb
    cases hs
  named := by
    intro j b r hb hs
    obtain ⟨-, rfl⟩ := job_busy_eq hb
    cases hs
  full := by
    intro x h
    cases x <;> exact absurd rfl h
  owned := by
    intro x r hr
    cases x with
    | u =>
      have h0 : r ∈ [record0] := hr
      rw [List.mem_singleton.mp h0]
      exact ⟨busyJob, rfl, rfl⟩
    | s => cases hr

theorem busy_Bounded : Bounded busy where
  word := by decide
  fifo := by intro p; cases p <;> decide
  lineErrors := by intro p; cases p <;> decide
  queue := by intro p; cases p <;> decide
  cache := by intro p; cases p <;> decide
  results := by intro p; cases p <;> decide
  inFlight := by intro p; cases p <;> decide
  retry := by intro p; cases p <;> decide

theorem busy_SequenceLaw : SequenceLaw busy := by
  intro x
  cases x with
  | u =>
    refine ⟨?_, by decide⟩
    have h : ∀ i, i < 2 → [(6 : Byte), 7][i]? = some (8 - BitVec.ofNat 8 (2 - i)) := by decide
    exact h
  | s => exact ⟨fun i hi => absurd hi (Nat.not_lt_zero i), by decide⟩

theorem busy_NoticeSequenceLaw : NoticeSequenceLaw busy := by
  intro x
  cases x with
  | u =>
    refine ⟨?_, by decide⟩
    have h : ∀ i, i < 1 → [(0 : Byte)][i]? = some (1 - BitVec.ofNat 8 (1 - i)) := by decide
    exact h
  | s => exact ⟨fun i hi => absurd hi (Nat.not_lt_zero i), by decide⟩

theorem busy_TimerLaw : TimerLaw busy := by
  intro x
  cases x <;> exact ⟨rfl, by decide, by decide⟩

theorem busy_EntriesDistinct : EntriesDistinct busy := by
  intro x
  cases x with
  | u =>
    have h : [Entry.alert 0 .above 700 0 0, .results].Pairwise fun e f => e.sameKind f = false := by
      decide
    exact h
  | s => exact List.Pairwise.nil

theorem busy_AlertsOwned : AlertsOwned busy := by
  intro x j c v run n h
  cases x with
  | u =>
    have h0 : Entry.alert j c v run n ∈ [Entry.alert 0 .above 700 0 0, .results] := h
    simp only [List.mem_cons, Entry.alert.injEq, reduceCtorEq, List.not_mem_nil, or_false] at h0
    obtain ⟨rfl, -⟩ := h0
    exact ⟨busyJob, rfl, rfl⟩
  | s => cases h

theorem busy_WatchLaw : WatchLaw busy := by
  intro j b w hb hw
  obtain ⟨rfl, rfl⟩ := job_busy_eq hb
  cases hw
  refine ⟨fun h => absurd h (by decide), ?_⟩
  intro c v run n h
  have h0 : Entry.alert 0 c v run n ∈ [Entry.alert 0 .above 700 0 0, .results] := h
  simp only [List.mem_cons, Entry.alert.injEq, reduceCtorEq, List.not_mem_nil, or_false] at h0
  obtain ⟨-, rfl, -⟩ := h0
  decide

theorem busy_Quiet : Quiet busy := by
  refine ⟨fun _ => cls_busy, ?_⟩
  intro h
  cases h

theorem busy_MemoriesCanonical : MemoriesCanonical busy := ⟨rfl, rfl⟩

/-! ### Teardown: the ring and set of session U, named by a job of either session -/

/-- A DEFINED job of a session on the ring and the set of session U. -/
def idleJob (o : Port) : Job := { jobIn .defined with owner := o }

theorem idle_job {o : Port} {j : JobId} {b : Job} (h : (withJob (idleJob o)).job j = some b) :
    j = 0 ∧ b = idleJob o := by
  rw [job_withJob] at h
  split at h
  · cases h; exact ⟨‹_›, rfl⟩
  · cases h

theorem idle_ring {o : Port} {r : RingId} {g : Ring} (h : (withJob (idleJob o)).ring r = some g) :
    r = 0 ∧ g = hostRing :=
  ring_busy_eq h

theorem idle_coef {o : Port} {c : SetId} {v : CoefSet} (h : (withJob (idleJob o)).coef c = some v) :
    c = 0 ∧ v = readySet :=
  coef_busy_eq h

theorem idle_SchedulerLaw (o : Port) : SchedulerLaw (withJob (idleJob o)) where
  nodup c := by
    rw [show (withJob (idleJob o)).cls c = [] from cls_busy c]
    exact List.nodup_nil
  queued := by
    intro c j
    rw [show (withJob (idleJob o)).cls c = [] from cls_busy c]
    simp only [List.not_mem_nil, false_iff]
    rintro ⟨b, hb, hw, -⟩
    obtain ⟨-, rfl⟩ := idle_job hb
    cases hw
  running := by
    intro j
    constructor
    · rintro ⟨b, hb, hs⟩
      obtain ⟨-, rfl⟩ := idle_job hb
      cases hs
    · rintro ⟨run, hr, -⟩
      cases hr
  parkedFirst := by
    intro j b p hb hs
    obtain ⟨-, rfl⟩ := idle_job hb
    cases hs
  runningAlone := by
    intro j b k d p hb hs
    obtain ⟨-, rfl⟩ := idle_job hb
    cases hs
  settled := fun _ c => cls_busy c

theorem idle_ReferenceLaw (o : Port) : ReferenceLaw (withJob (idleJob o)) where
  ringRefs := by
    intro r g hg
    obtain ⟨rfl, rfl⟩ := idle_ring hg
    cases o <;> decide
  ringNamed := by
    intro j b hb
    obtain ⟨-, rfl⟩ := idle_job hb
    exact ⟨hostRing, rfl⟩
  setRefs := by
    intro c v hv
    obtain ⟨rfl, rfl⟩ := idle_coef hv
    cases o <;> decide
  setNamed := by
    intro j b hb
    obtain ⟨-, rfl⟩ := idle_job hb
    exact ⟨readySet, rfl, by decide⟩
  loads := by
    intro x l hl
    cases x <;> cases hl
  loading := by
    intro c v hv hp
    obtain ⟨-, rfl⟩ := idle_coef hv
    cases hp
  ringOrphan := by
    intro r g hg
    obtain ⟨-, rfl⟩ := idle_ring hg
    decide
  setOrphan := by
    intro c v hv
    obtain ⟨-, rfl⟩ := idle_coef hv
    decide

theorem idle_HeldLaw (o : Port) : HeldLaw (withJob (idleJob o)) where
  nodup x := by cases x <;> exact List.nodup_nil
  listed := by
    intro x j
    rw [show ((withJob (idleJob o)).session x).heldOrder = [] by cases x <;> rfl]
    simp only [List.not_mem_nil, false_iff]
    rintro ⟨b, r, hb, -, hs⟩
    obtain ⟨-, rfl⟩ := idle_job hb
    cases hs
  named := by
    intro j b r hb hs
    obtain ⟨-, rfl⟩ := idle_job hb
    cases hs
  full := by
    intro x h
    cases x <;> exact absurd rfl h
  owned := by
    intro x r hr
    cases x <;> cases hr

/-- The teardown of U with the job of S (the ring is orphaned), with the job of U (it is freed), and the
teardown of S with its job (U's ring stays with a count of 0). -/
theorem witness_TeardownLeavesNothingOfTheSession :
    hostRing.owner = some .u ∧ readySet.owner = some .u ∧
    ringJobsOf (otherPort .u) 0 (withJob (idleJob .s)) = 1 ∧
    setJobsOf (otherPort .u) 0 (withJob (idleJob .s)) = 1 ∧
    ringJobsOf (otherPort .u) 0 (withJob (idleJob .u)) = 0 ∧
    setJobsOf (otherPort .u) 0 (withJob (idleJob .u)) = 0 ∧
    ringJobsOf (otherPort .s) 0 (withJob (idleJob .s)) = 0 ∧ otherPort .s = .u := by decide

end Sys2Proof.Tests
end

section
/-! SUPPORT. What a happening does to the records of the part, said once: every step is a chain of the changes
`Change` and `Move`, so that a law holds after every step when each of these changes keeps it. -/

namespace Sys2Proof.Machine

/-! ### The changes -/

/-- The lists and counts of a session are within their capacities. -/
structure Session.Within (z : Session) : Prop where
  queue : z.queue.length ≤ Config.commandQueueSize
  cache : z.cache.length ≤ Config.replyCacheSize
  results : z.results.length ≤ Config.resultQueueSize
  inFlight : z.inFlight.length ≤ Config.inFlightSize
  retry : z.retry ≤ Config.maxRetries

/-- A change of a session's record that leaves its load context and outgrows no capacity. -/
structure ListsKept (z z' : Session) : Prop where
  load : z'.load = z.load
  within : z.Within → z'.Within

/-- A change of a job's record that leaves its ring and set and pins no new window. -/
structure JobKept (b c : Job) : Prop where
  ring : c.ring = b.ring
  set : c.set = b.set
  pins : c.state.pins = true →
    b.state.pins = true ∧ c.windowStart = b.windowStart ∧ c.par.length = b.par.length

/-- The two states agree in rings, bindings, jobs, sets, sessions, ports and the sample word in progress. -/
structure SameRecords (s t : State) : Prop where
  rings : t.rings = s.rings
  bindings : t.bindings = s.bindings
  jobs : t.jobs = s.jobs
  sets : t.sets = s.sets
  sessions : t.sessions = s.sessions
  ports : t.ports = s.ports
  spWord : t.spWord = s.spWord

theorem SameRecords.ring {s t : State} (h : SameRecords s t) (r : RingId) : t.ring r = s.ring r :=
  congrArg (Table.look · r) h.rings

theorem SameRecords.binding {s t : State} (h : SameRecords s t) (c : ChannelId) :
    t.binding c = s.binding c := congrArg (Table.look · c) h.bindings

theorem SameRecords.job {s t : State} (h : SameRecords s t) (j : JobId) : t.job j = s.job j :=
  congrArg (Table.look · j) h.jobs

theorem SameRecords.coef {s t : State} (h : SameRecords s t) (c : SetId) : t.coef c = s.coef c :=
  congrArg (Table.look · c) h.sets

theorem SameRecords.session {s t : State} (h : SameRecords s t) (x : Port) : t.session x = s.session x :=
  congrArg (Pair.look · x) h.sessions

/-- One change that leaves rings, sets, load contexts and what a job names. -/
inductive Plain : State → State → Prop where
  /-- None of the records that the laws speak of. -/
  | other {s t : State} (h : SameRecords s t) : Plain s t
  /-- A job's record, its ring, set and window left alone. -/
  | job {s : State} {j : JobId} {b : Job} (c : Job) (hb : s.job j = some b) (hk : JobKept b c) :
      Plain s (s.putJob j (some c))
  /-- A session's lists. -/
  | session {s : State} (x : Port) (f : Session → Session)
      (hk : ListsKept (s.session x) (f (s.session x))) : Plain s (s.modSession x f)

/-- A chain of such changes. -/
def Plains : State → State → Prop := Relation.ReflTransGen Plain

/-- One change that a block makes of its records. -/
inductive Change : State → State → Prop where
  /-- Rings, sets, load contexts and what a job names are left. -/
  | plain {s t : State} (h : Plain s t) : Change s t
  /-- A job fires on the newest samples of its ring (02 R36, R38). -/
  | fire {s : State} {j : JobId} {b : Job} (countdown : Nat) (extra : Bool) (hb : s.job j = some b)
      (hl : b.par.length ≤ fillOf b.ring s) :
      Change s (fire j { b with countdown := countdown } (headOf b.ring s) extra s)
  /-- A ring takes a sample that overwrites no window (01 R2, R5). -/
  | take {s : State} {r : RingId} {g : Ring} (hr : s.ring r = some g) (hl : g.head < Config.headLimit)
      (hp : ∀ j b, s.job j = some b → b.pinsRing r = true →
        g.capacity ≤ g.head → g.head - g.capacity < b.windowStart) :
      Change s (s.putRing r (some g.taken))
  /-- A ring without pinning jobs is emptied (01 R19). -/
  | empty {s : State} {r : RingId} {g : Ring} (hr : s.ring r = some g)
      (hp : ∀ j b, s.job j = some b → b.pinsRing r = false) :
      Change s (s.putRing r (some { g with fill := 0 }))
  /-- A ring is created (01 R17). -/
  | createRing {s : State} {r : RingId} {src : Source} {capacity : Nat} (x : Port) (base : Nat)
      (hr : s.ring r = none) (hs : sourceBound src s = false)
      (hl : Config.minCapacity ≤ capacity) (hu : capacity ≤ Config.maxCapacity) :
      Change s (bindSource src r (s.putRing r (some (Ring.created x src base capacity))))
  /-- A ring that no job names is freed (01 R1, R18, R23). -/
  | freeRing {s : State} {r : RingId} {g : Ring} (hr : s.ring r = some g) (h0 : g.refs = 0) :
      Change s (freeRing r s)
  /-- A ring that jobs name is orphaned (01 R23). -/
  | orphanRing {s : State} {r : RingId} {g : Ring} (hr : s.ring r = some g) (h0 : g.refs ≠ 0) :
      Change s (s.putRing r (some { g with owner := none, orphaned := true }))
  /-- A load context opens (06 R109). -/
  | beginLoad {s : State} {x : Port} {c : SetId} (base length : Nat) (hl : (s.session x).load = none)
      (hc : s.coef c = none) :
      Change s (putLoad x (some { set := c, next := 0 }) (s.putCoef c (some
        { owner := some x, base := base, length := length, refs := 0, phase := .loading })))
  /-- The next offset of a load context moves (06 R111, R113). -/
  | moveLoad {s : State} {x : Port} {l : Load} {v : CoefSet} (next : Nat)
      (hl : (s.session x).load = some l) (hv : s.coef l.set = some v) (hn : next ≤ v.length) :
      Change s (putLoad x (some { l with next := next }) s)
  /-- A load is complete (06 R113). -/
  | endLoad {s : State} {x : Port} {l : Load} {v : CoefSet} (crc : Word16)
      (hl : (s.session x).load = some l) (hv : s.coef l.set = some v) :
      Change s (putLoad x none (s.putCoef l.set (some { v with refs := 0, phase := .ready false crc })))
  /-- A load is given up, and its set freed (06 R114, R118). -/
  | dropLoad {s : State} {x : Port} {l : Load} (hl : (s.session x).load = some l) :
      Change s (putLoad x none (freeSet l.set s))
  /-- A READY set that no job names is freed (06 R104, R115, R118). -/
  | freeSet {s : State} {c : SetId} {v : CoefSet} (hv : s.coef c = some v) (hp : v.phase ≠ .loading)
      (h0 : v.refs = 0) : Change s (freeSet c s)
  /-- A READY set that jobs name is orphaned (06 R118). -/
  | orphanSet {s : State} {c : SetId} {v : CoefSet} {o : Bool} {crc : Word16} (hv : s.coef c = some v)
      (hp : v.phase = .ready o crc) (h0 : v.refs ≠ 0) :
      Change s (s.putCoef c (some { v with owner := none, phase := .ready true crc }))
  /-- An EMPTY job record is defined (02 R29). -/
  | defineJob {s : State} {j : JobId} {g : Ring} {v : CoefSet} (d : Job) (hj : s.job j = none)
      (hr : s.ring d.ring = some g) (hv : s.coef d.set = some v) (hp : v.phase ≠ .loading)
      (hd : d.state = .defined) :
      Change s ((refSet d.set (refRing d.ring s)).putJob j (some d))
  /-- A job is redefined (02 R30, R31). -/
  | redefineJob {s : State} {j : JobId} {b : Job} {g : Ring} {v : CoefSet} (d : Job)
      (hb : s.job j = some b) (hr : s.ring d.ring = some g) (hv : s.coef d.set = some v)
      (hp : v.phase ≠ .loading) (hd : d.state = .defined) :
      Change s ((unrefSet b.set (refSet d.set (unrefRing b.ring (refRing d.ring s)))).putJob j (some d))
  /-- A job's record becomes EMPTY (02 R45). -/
  | deleteJob {s : State} {j : JobId} {b : Job} (hb : s.job j = some b) :
      Change s ((unrefSet b.set (unrefRing b.ring s)).putJob j none)

/-- A chain of changes of the blocks' records. -/
def Changes : State → State → Prop := Relation.ReflTransGen Change

/-- A change of a port's record that outgrows no capacity. -/
structure PortKept (q q' : PortState) : Prop where
  fifo : q'.fifo.length ≤ q.fifo.length
  lineErrors : q.lineErrors ≤ Config.countLimit → q'.lineErrors ≤ Config.countLimit

/-- One change within a happening: of a block's records, of a port, of the sample word in progress, or a
device reset. -/
inductive Move : State → State → Prop where
  | change {s t : State} (h : Change s t) : Move s t
  /-- Fewer than 18 bits of a sample word are taken (01 R9). -/
  | word {s : State} (l : List Bool) (h : l.length < Config.sampleWordSize) :
      Move s { s with spWord := l }
  /-- A port's receiver, or fewer frames in its FIFO, or its line error count (10). -/
  | port {s : State} (p : Port) (f : PortState → PortState) (hk : PortKept (s.port p) (f (s.port p))) :
      Move s (s.modPort p f)
  /-- A frame joins a reply FIFO that has room (10 R179). -/
  | place {s : State} {p : Port} (f : Frame) (h : fifoRoom p s = true) : Move s (place p f s)
  /-- Device reset (10 R181). -/
  | reset {s : State} (baud : Level) (lines : Lines) : Move s (resetDevice baud lines s)

/-- A chain of changes within a happening. -/
def Moves : State → State → Prop := Relation.ReflTransGen Move

theorem JobKept.refl (b : Job) : JobKept b b := ⟨rfl, rfl, fun h => ⟨h, rfl, rfl⟩⟩

theorem JobKept.trans {b c d : Job} (h : JobKept b c) (h' : JobKept c d) : JobKept b d :=
  ⟨h'.ring.trans h.ring, h'.set.trans h.set, fun hp => by
    obtain ⟨hc, hw', hl'⟩ := h'.pins hp
    obtain ⟨hb, hw, hl⟩ := h.pins hc
    exact ⟨hb, hw'.trans hw, hl'.trans hl⟩⟩

/-- A job that pins no window keeps every window. -/
theorem JobKept.of_not_pins {b c : Job} (hr : c.ring = b.ring) (hs : c.set = b.set)
    (hp : c.state.pins = false) : JobKept b c := ⟨hr, hs, fun h => by rw [hp] at h; cases h⟩

theorem Plains.refl (s : State) : Plains s s := Relation.ReflTransGen.refl

theorem Plains.trans {s t u : State} (h : Plains s t) (h' : Plains t u) : Plains s u :=
  Relation.ReflTransGen.trans h h'

theorem Changes.refl (s : State) : Changes s s := Relation.ReflTransGen.refl

theorem Changes.trans {s t u : State} (h : Changes s t) (h' : Changes t u) : Changes s u :=
  Relation.ReflTransGen.trans h h'

theorem Moves.refl (s : State) : Moves s s := Relation.ReflTransGen.refl

theorem Moves.trans {s t u : State} (h : Moves s t) (h' : Moves t u) : Moves s u :=
  Relation.ReflTransGen.trans h h'

theorem Plain.plains {s t : State} (h : Plain s t) : Plains s t := Relation.ReflTransGen.single h

theorem Change.changes {s t : State} (h : Change s t) : Changes s t := Relation.ReflTransGen.single h

theorem Move.moves {s t : State} (h : Move s t) : Moves s t := Relation.ReflTransGen.single h

theorem Plains.changes {s t : State} (h : Plains s t) : Changes s t :=
  Relation.ReflTransGen.mono (fun _ _ => .plain) _ _ h

theorem Changes.moves {s t : State} (h : Changes s t) : Moves s t :=
  Relation.ReflTransGen.mono (fun _ _ => .change) _ _ h

theorem Plains.moves {s t : State} (h : Plains s t) : Moves s t := h.changes.moves

theorem Plains.other {s t : State} (h : SameRecords s t) : Plains s t := (Plain.other h).plains

theorem Plains.job {s : State} {j : JobId} {b : Job} (c : Job) (hb : s.job j = some b)
    (hk : JobKept b c) : Plains s (s.putJob j (some c)) := (Plain.job c hb hk).plains

theorem Plains.session {s : State} {x : Port} {f : Session → Session}
    (hk : ListsKept (s.session x) (f (s.session x))) : Plains s (s.modSession x f) :=
  (Plain.session x f hk).plains

theorem Changes.other {s t : State} (h : SameRecords s t) : Changes s t := (Plains.other h).changes

theorem Changes.job {s : State} {j : JobId} {b : Job} (c : Job) (hb : s.job j = some b)
    (hk : JobKept b c) : Changes s (s.putJob j (some c)) := (Plains.job c hb hk).changes

/-- What every change keeps, a chain of changes keeps. -/
theorem Changes.keeps {P : State → Prop} (h : ∀ {s t}, Change s t → P s → P t) {s t : State}
    (hc : Changes s t) (hs : P s) : P t := by
  induction hc with
  | refl => exact hs
  | tail _ hc ih => exact h hc ih

/-- What every change within a happening keeps, a chain of them keeps. -/
theorem Moves.keeps {P : State → Prop} (h : ∀ {s t}, Move s t → P s → P t) {s t : State}
    (hc : Moves s t) (hs : P s) : P t := by
  induction hc with
  | refl => exact hs
  | tail _ hc ih => exact h hc ih

/-! ### What the operations on rings and sets leave -/

/-- Only rings, their bindings and the free list of sample memory differ. -/
structure RingsOnly (s t : State) : Prop where
  jobs : t.jobs = s.jobs
  sets : t.sets = s.sets
  sessions : t.sessions = s.sessions
  ports : t.ports = s.ports
  spWord : t.spWord = s.spWord

/-- Only sets and the free list of coefficient memory differ. -/
structure SetsOnly (s t : State) : Prop where
  rings : t.rings = s.rings
  bindings : t.bindings = s.bindings
  jobs : t.jobs = s.jobs
  sessions : t.sessions = s.sessions
  ports : t.ports = s.ports
  spWord : t.spWord = s.spWord

theorem RingsOnly.refl (s : State) : RingsOnly s s := ⟨rfl, rfl, rfl, rfl, rfl⟩

theorem RingsOnly.trans {s t u : State} (h : RingsOnly s t) (h' : RingsOnly t u) : RingsOnly s u :=
  ⟨h'.jobs.trans h.jobs, h'.sets.trans h.sets, h'.sessions.trans h.sessions, h'.ports.trans h.ports,
    h'.spWord.trans h.spWord⟩

theorem RingsOnly.job {s t : State} (h : RingsOnly s t) (j : JobId) : t.job j = s.job j :=
  congrArg (Table.look · j) h.jobs

theorem RingsOnly.coef {s t : State} (h : RingsOnly s t) (c : SetId) : t.coef c = s.coef c :=
  congrArg (Table.look · c) h.sets

theorem RingsOnly.session {s t : State} (h : RingsOnly s t) (x : Port) : t.session x = s.session x :=
  congrArg (Pair.look · x) h.sessions

theorem SetsOnly.refl (s : State) : SetsOnly s s := ⟨rfl, rfl, rfl, rfl, rfl, rfl⟩

theorem SetsOnly.trans {s t u : State} (h : SetsOnly s t) (h' : SetsOnly t u) : SetsOnly s u :=
  ⟨h'.rings.trans h.rings, h'.bindings.trans h.bindings, h'.jobs.trans h.jobs,
    h'.sessions.trans h.sessions, h'.ports.trans h.ports, h'.spWord.trans h.spWord⟩

theorem SetsOnly.ring {s t : State} (h : SetsOnly s t) (r : RingId) : t.ring r = s.ring r :=
  congrArg (Table.look · r) h.rings

theorem SetsOnly.binding {s t : State} (h : SetsOnly s t) (c : ChannelId) : t.binding c = s.binding c :=
  congrArg (Table.look · c) h.bindings

theorem SetsOnly.session {s t : State} (h : SetsOnly s t) (x : Port) : t.session x = s.session x :=
  congrArg (Pair.look · x) h.sessions

theorem putRing_only (s : State) (r : RingId) (v : Option Ring) : RingsOnly s (s.putRing r v) :=
  ⟨rfl, rfl, rfl, rfl, rfl⟩

theorem putCoef_only (s : State) (c : SetId) (v : Option CoefSet) : SetsOnly s (s.putCoef c v) :=
  ⟨rfl, rfl, rfl, rfl, rfl, rfl⟩

theorem freeRing_only (r : RingId) (s : State) : RingsOnly s (freeRing r s) := by
  unfold freeRing
  cases s.ring r with
  | none => exact .refl s
  | some g => simp only [unbind]; cases g.source <;> exact ⟨rfl, rfl, rfl, rfl, rfl⟩

theorem refRing_only (r : RingId) (s : State) : RingsOnly s (refRing r s) := by
  unfold refRing
  cases s.ring r with
  | none => exact .refl s
  | some g => exact putRing_only _ _ _

theorem unrefRing_only (r : RingId) (s : State) : RingsOnly s (unrefRing r s) := by
  unfold unrefRing
  cases s.ring r with
  | none => exact .refl s
  | some g =>
    simp only
    split
    · exact (putRing_only _ _ _).trans (freeRing_only _ _)
    · exact putRing_only _ _ _

theorem bindSource_only (src : Source) (r : RingId) (s : State) : RingsOnly s (bindSource src r s) := by
  cases src <;> exact ⟨rfl, rfl, rfl, rfl, rfl⟩

theorem freeSet_only (c : SetId) (s : State) : SetsOnly s (freeSet c s) := by
  unfold freeSet
  cases s.coef c with
  | none => exact .refl s
  | some v => exact ⟨rfl, rfl, rfl, rfl, rfl, rfl⟩

theorem refSet_only (c : SetId) (s : State) : SetsOnly s (refSet c s) := by
  unfold refSet
  cases s.coef c with
  | none => exact .refl s
  | some v => exact putCoef_only _ _ _

theorem unrefSet_only (c : SetId) (s : State) : SetsOnly s (unrefSet c s) := by
  unfold unrefSet
  cases s.coef c with
  | none => exact .refl s
  | some v =>
    simp only
    split
    · exact (putCoef_only _ _ _).trans (freeSet_only _ _)
    · exact putCoef_only _ _ _

/-- The record of a freed ring is ABSENT, the others stay (01 R1). -/
theorem ring_freeRing (r k : RingId) (s : State) :
    (freeRing r s).ring k = if k = r then none else s.ring k := by
  unfold freeRing
  cases hr : s.ring r with
  | none => by_cases h : k = r <;> simp [h, hr]
  | some g => simp only [unbind]; cases g.source <;> simp [State.look_rings]

/-- The record of a freed set is EMPTY, the others stay (06 R104). -/
theorem coef_freeSet (c k : SetId) (s : State) :
    (freeSet c s).coef k = if k = c then none else s.coef k := by
  unfold freeSet
  cases hc : s.coef c with
  | none => by_cases h : k = c <;> simp [h, hc]
  | some v => simp [State.look_sets]

/-- A ring that a job less names: gone when it is orphaned and no job is left (01 R6, R7). -/
def Ring.unref (g : Ring) : Option Ring :=
  if g.orphaned = true ∧ g.refs - 1 = 0 then none else some { g with refs := g.refs - 1 }

/-- A set that a job less names: gone when it is orphaned and no job is left (06 R106, R107). -/
def CoefSet.unref (v : CoefSet) : Option CoefSet :=
  if v.isOrphaned = true ∧ v.refs - 1 = 0 then none else some { v with refs := v.refs - 1 }

theorem ring_refRing {r : RingId} {g : Ring} {s : State} (h : s.ring r = some g) (k : RingId) :
    (refRing r s).ring k = if k = r then some { g with refs := g.refs + 1 } else s.ring k := by
  rw [refRing_eq h, State.ring_putRing]

theorem ring_unrefRing {r : RingId} {g : Ring} {s : State} (h : s.ring r = some g) (k : RingId) :
    (unrefRing r s).ring k = if k = r then g.unref else s.ring k := by
  simp only [unrefRing, h, Ring.unref]
  by_cases hk : k = r
  · split <;> simp [hk, ring_freeRing]
  · split <;> simp [hk, ring_freeRing]

theorem coef_refSet {c : SetId} {v : CoefSet} {s : State} (h : s.coef c = some v) (k : SetId) :
    (refSet c s).coef k = if k = c then some { v with refs := v.refs + 1 } else s.coef k := by
  rw [refSet_eq h, State.coef_putCoef]

theorem coef_unrefSet {c : SetId} {v : CoefSet} {s : State} (h : s.coef c = some v) (k : SetId) :
    (unrefSet c s).coef k = if k = c then v.unref else s.coef k := by
  simp only [unrefSet, h, CoefSet.unref]
  by_cases hk : k = c
  · split <;> simp [hk, coef_freeSet]
  · split <;> simp [hk, coef_freeSet]

end Sys2Proof.Machine
end

section
/-! SUPPORT. The law of references: its form record by record, and each change keeps it (01 R6, R7; 06 R106
to R108). -/

namespace Sys2Proof.Machine

/-! ### Counting the jobs that name an object -/

/-- How many jobs have a property. -/
def jobCount (f : Job → Bool) (s : State) : Nat := allJobs.countP fun j => (s.job j).any f

theorem ringJobs_eq (r : RingId) (s : State) : ringJobs r s = jobCount (fun b => b.ring = r) s := by
  rw [ringJobs, jobCount, List.countP_eq_length_filter]
  congr 2
  funext j
  cases s.job j <;> rfl

theorem setJobs_eq (c : SetId) (s : State) : setJobs c s = jobCount (fun b => b.set = c) s := by
  rw [setJobs, jobCount, List.countP_eq_length_filter]
  congr 2
  funext j
  cases s.job j <;> rfl

theorem jobCount_pos {f : Job → Bool} {s : State} {j : JobId} {b : Job} (hb : s.job j = some b)
    (hf : f b = true) : 0 < jobCount f s :=
  List.countP_pos_iff.mpr ⟨j, mem_allJobs j, by simp [hb, hf]⟩

theorem jobCount_eq_zero {f : Job → Bool} {s : State} (h : ∀ j b, s.job j = some b → f b = false) :
    jobCount f s = 0 := by
  refine List.countP_eq_zero.mpr fun j _ => ?_
  cases hj : s.job j with
  | none => simp
  | some b => simp [h j b hj]

theorem jobCount_of_jobs {f : Job → Bool} {s t : State} (h : t.jobs = s.jobs) :
    jobCount f t = jobCount f s := by
  simp only [jobCount, State.job, h]

/-- A count over a list without repetition changes with the one place where the property changes. -/
theorem countP_update {l : List JobId} (hl : l.Nodup) {j : JobId} (hj : j ∈ l) {p q : JobId → Bool}
    (h : ∀ k, k ≠ j → q k = p k) :
    l.countP q + (p j).toNat = l.countP p + (q j).toNat := by
  obtain ⟨pre, post, rfl⟩ := List.append_of_mem hj
  have hn := List.nodup_middle.mp hl
  have hne : ∀ k ∈ pre ++ post, k ≠ j := fun k hk e => (List.nodup_cons.mp hn).1 (e ▸ hk)
  have hpre : pre.countP q = pre.countP p :=
    List.countP_congr fun k hk => by rw [h k (hne k (by simp [hk]))]
  have hpost : post.countP q = post.countP p :=
    List.countP_congr fun k hk => by rw [h k (hne k (by simp [hk]))]
  simp only [List.countP_append, List.countP_cons, hpre, hpost]
  cases p j <;> cases q j <;> simp <;> omega

/-- The count follows the one record that is replaced. -/
theorem jobCount_putJob (f : Job → Bool) (s : State) (j : JobId) (v : Option Job) :
    jobCount f (s.putJob j v) + ((s.job j).any f).toNat = jobCount f s + (v.any f).toNat := by
  have h := countP_update (List.nodup_finRange 32) (mem_allJobs j)
    (p := fun k => (s.job k).any f) (q := fun k => ((s.putJob j v).job k).any f)
    (fun k hk => by simp [hk])
  simpa [jobCount, allJobs] using h

theorem jobCount_putJob_of_jobs {f : Job → Bool} {s t : State} (h : t.jobs = s.jobs) (j : JobId)
    (v : Option Job) : jobCount f (t.putJob j v) = jobCount f (s.putJob j v) :=
  jobCount_of_jobs (by simp only [State.putJob, h])

/-- A replaced record with the property as before leaves the count. -/
theorem jobCount_putJob_same {f : Job → Bool} {s : State} {j : JobId} {b c : Job}
    (hb : s.job j = some b) (hf : f c = f b) : jobCount f (s.putJob j (some c)) = jobCount f s := by
  have h := jobCount_putJob f s j (some c)
  simp only [hb, Option.any_some, hf] at h
  omega

/-- A new job with the property raises the count by one. -/
theorem jobCount_define (f : Job → Bool) {s : State} {j : JobId} (hj : s.job j = none) (d : Job) :
    jobCount f (s.putJob j (some d)) = jobCount f s + (f d).toNat := by
  simpa [hj] using jobCount_putJob f s j (some d)

/-- A deleted job with the property lowers the count by one. -/
theorem jobCount_delete (f : Job → Bool) {s : State} {j : JobId} {b : Job} (hb : s.job j = some b) :
    jobCount f s = jobCount f (s.putJob j none) + (f b).toNat := by
  simpa [hb] using (jobCount_putJob f s j none).symm

/-- A replaced job leaves the count of its old properties and joins that of its new ones. -/
theorem jobCount_redefine (f : Job → Bool) {s : State} {j : JobId} {b : Job} (hb : s.job j = some b)
    (d : Job) : jobCount f s + (f d).toNat = jobCount f (s.putJob j (some d)) + (f b).toNat := by
  simpa [hb] using (jobCount_putJob f s j (some d)).symm

/-! ### The law, record by record -/

/-- What the law asks of a ring's record when `n` jobs name it. -/
def RingSound (n : Nat) : Option Ring → Prop
  | none => n = 0
  | some g => g.refs = n ∧ (g.orphaned = true ↔ g.owner = none) ∧ (g.orphaned = true → 0 < n)

/-- What the law asks of a set's record when `n` jobs name it. -/
def SetSound (n : Nat) : Option CoefSet → Prop
  | none => n = 0
  | some v => v.refs = n ∧ (v.phase = .loading → n = 0) ∧ (v.isOrphaned = true ↔ v.owner = none) ∧
      (v.isOrphaned = true → 0 < n)

/-- What the law asks of the load contexts. -/
structure LoadsSound (s : State) : Prop where
  loads : ∀ x l, (s.session x).load = some l →
    ∃ v, s.coef l.set = some v ∧ v.phase = .loading ∧ v.owner = some x ∧ l.next ≤ v.length
  loading : ∀ c v, s.coef c = some v → v.phase = .loading →
    ∃ x l, v.owner = some x ∧ (s.session x).load = some l ∧ l.set = c

/-- Every ring's record is as the law asks when `n r` jobs name ring `r`. -/
def RingsCount (n : RingId → Nat) (s : State) : Prop := ∀ r, RingSound (n r) (s.ring r)

/-- Every set's record is as the law asks when `n c` jobs name set `c`. -/
def SetsCount (n : SetId → Nat) (s : State) : Prop := ∀ c, SetSound (n c) (s.coef c)

/-- Every ring's record is as the law asks. -/
def RingsSound (s : State) : Prop := RingsCount (fun r => jobCount (fun b => b.ring = r) s) s

/-- Every set's record is as the law asks. -/
def SetsSound (s : State) : Prop := SetsCount (fun c => jobCount (fun b => b.set = c) s) s

theorem RingsSound.named {s : State} (h : RingsSound s) {j : JobId} {b : Job} (hb : s.job j = some b) :
    ∃ g, s.ring b.ring = some g := by
  have h1 := h b.ring
  have h2 : 0 < jobCount (fun c => c.ring = b.ring) s := jobCount_pos hb (by simp)
  cases hg : s.ring b.ring with
  | some g => exact ⟨g, rfl⟩
  | none => rw [hg] at h1; simp only [RingSound] at h1; omega

theorem SetsSound.named {s : State} (h : SetsSound s) {j : JobId} {b : Job} (hb : s.job j = some b) :
    ∃ v, s.coef b.set = some v ∧ v.phase ≠ .loading := by
  have h1 := h b.set
  have h2 : 0 < jobCount (fun c => c.set = b.set) s := jobCount_pos hb (by simp)
  cases hv : s.coef b.set with
  | some v =>
    rw [hv] at h1
    exact ⟨v, rfl, fun e => h2.ne' (h1.2.1 e)⟩
  | none => rw [hv] at h1; simp only [SetSound] at h1; omega

/-- The reference law is what it asks of the rings, of the sets and of the load contexts. -/
theorem referenceLaw_iff (s : State) :
    ReferenceLaw s ↔ RingsSound s ∧ SetsSound s ∧ LoadsSound s := by
  constructor
  · intro h
    refine ⟨fun r => ?_, fun c => ?_, h.loads, h.loading⟩
    · cases hr : s.ring r with
      | none =>
        refine jobCount_eq_zero fun j b hb => ?_
        obtain ⟨g, hg⟩ := h.ringNamed j b hb
        rw [decide_eq_false_iff_not]
        rintro rfl
        rw [hr] at hg
        cases hg
      | some g =>
        have h1 := h.ringRefs r g hr
        obtain ⟨h2, h3⟩ := h.ringOrphan r g hr
        rw [ringJobs_eq] at h1
        exact ⟨h1, h2, fun ho => (h3 ho).trans_eq h1⟩
    · have hn : ∀ j b, s.job j = some b → ∀ v, s.coef c = some v → v.phase = .loading → b.set ≠ c := by
        rintro j b hb v hv hp rfl
        obtain ⟨w, hw, hw'⟩ := h.setNamed j b hb
        rw [hv] at hw
        cases hw
        exact hw' hp
      cases hc : s.coef c with
      | none =>
        refine jobCount_eq_zero fun j b hb => ?_
        obtain ⟨v, hv, -⟩ := h.setNamed j b hb
        rw [decide_eq_false_iff_not]
        rintro rfl
        rw [hc] at hv
        cases hv
      | some v =>
        have h1 := h.setRefs c v hc
        obtain ⟨h2, h3⟩ := h.setOrphan c v hc
        rw [setJobs_eq] at h1
        exact ⟨h1, fun hp => jobCount_eq_zero fun j b hb => by simpa using hn j b hb v hc hp, h2,
          fun ho => (h3 ho).trans_eq h1⟩
  · rintro ⟨hr, hs, hl⟩
    have ring : ∀ r g, s.ring r = some g → RingSound (jobCount (fun b => b.ring = r) s) (some g) :=
      fun r g hg => hg ▸ hr r
    have set : ∀ c v, s.coef c = some v → SetSound (jobCount (fun b => b.set = c) s) (some v) :=
      fun c v hv => hv ▸ hs c
    exact
      { ringRefs := fun r g hg => (ringJobs_eq r s).symm ▸ (ring r g hg).1
        ringNamed := fun j b hb => hr.named hb
        setRefs := fun c v hv => (setJobs_eq c s).symm ▸ (set c v hv).1
        setNamed := fun j b hb => hs.named hb
        loads := hl.loads
        loading := hl.loading
        ringOrphan := fun r g hg => ⟨(ring r g hg).2.1, fun ho => (ring r g hg).1 ▸ (ring r g hg).2.2 ho⟩
        setOrphan := fun c v hv =>
          ⟨(set c v hv).2.2.1, fun ho => (set c v hv).1 ▸ (set c v hv).2.2.2 ho⟩ }

/-! ### References that come and go -/

theorem RingSound.ref {n : Nat} {g : Ring} (h : RingSound n (some g)) :
    RingSound (n + 1) (some { g with refs := g.refs + 1 }) :=
  ⟨by simp [h.1], h.2.1, fun _ => by omega⟩

theorem RingSound.unref {n : Nat} {g : Ring} (h : RingSound (n + 1) (some g)) : RingSound n g.unref := by
  obtain ⟨h1, h2, h3⟩ := h
  unfold Ring.unref
  split
  · rename_i h0
    have : n = 0 := by omega
    exact this
  · rename_i h0
    exact ⟨by simp only; omega, h2, fun ho => by
      by_contra hn
      exact h0 ⟨ho, by omega⟩⟩

theorem SetSound.ref {n : Nat} {v : CoefSet} (h : SetSound n (some v)) (hp : v.phase ≠ .loading) :
    SetSound (n + 1) (some { v with refs := v.refs + 1 }) :=
  ⟨by simp [h.1], fun e => absurd e hp, h.2.2.1, fun _ => by omega⟩

theorem SetSound.unref {n : Nat} {v : CoefSet} (h : SetSound (n + 1) (some v)) :
    SetSound n v.unref := by
  obtain ⟨h1, h2, h3, h4⟩ := h
  unfold CoefSet.unref
  split
  · have : n = 0 := by omega
    exact this
  · rename_i h0
    refine ⟨by simp only; omega, fun e => absurd (h2 e) (by omega), h3, fun ho => ?_⟩
    by_contra hn
    exact h0 ⟨ho, by omega⟩

end Sys2Proof.Machine
end

section
/-! SUPPORT. Each change keeps the law of references (01 R6, R7; 06 R106 to R108). -/

namespace Sys2Proof.Machine

/-! ### Rings -/

theorem RingsCount.of_rings {n : RingId → Nat} {s t : State} (h : RingsCount n s)
    (hr : t.rings = s.rings) : RingsCount n t := fun r => by
  rw [show t.ring r = s.ring r from congrArg (Table.look · r) hr]
  exact h r

theorem RingsCount.putRing {n : RingId → Nat} {s : State} {r : RingId} {v : Option Ring}
    (h : RingsCount n s) (hv : RingSound (n r) v) : RingsCount n (s.putRing r v) := fun k => by
  rw [State.ring_putRing]
  by_cases hk : k = r
  · subst hk; rw [if_pos rfl]; exact hv
  · rw [if_neg hk]; exact h k

theorem RingsCount.at {n : RingId → Nat} {s : State} (h : RingsCount n s) {r : RingId} {g : Ring}
    (hr : s.ring r = some g) : RingSound (n r) (some g) := hr ▸ h r

/-- A job more names a ring. -/
theorem RingsCount.ref {n n' : RingId → Nat} {s : State} {r : RingId} {g : Ring} (h : RingsCount n s)
    (hr : s.ring r = some g) (hn : ∀ k, n' k = n k + (decide (r = k)).toNat) :
    RingsCount n' (refRing r s) := fun k => by
  rw [ring_refRing hr, hn]
  by_cases hk : k = r
  · subst hk; simpa using (h.at hr).ref
  · simpa [hk, Ne.symm hk] using h k

/-- A job less names a ring. -/
theorem RingsCount.unref {n n' : RingId → Nat} {s : State} {r : RingId} (h : RingsCount n s)
    (hn : ∀ k, n k = n' k + (decide (r = k)).toNat) : RingsCount n' (unrefRing r s) := fun k => by
  have h0 := h k
  rw [hn] at h0
  cases hr : s.ring r with
  | none =>
    have h1 := h r
    rw [hr, hn] at h1
    simp [RingSound] at h1
  | some g =>
    rw [ring_unrefRing hr]
    by_cases hk : k = r
    · subst hk
      rw [hr] at h0
      simp only [decide_true, Bool.toNat_true] at h0
      simpa using h0.unref
    · simpa [hk, Ne.symm hk] using h0

theorem RingsSound.of_eq {s t : State} (h : RingsSound s) (hr : t.rings = s.rings)
    (hj : t.jobs = s.jobs) : RingsSound t := fun r => by
  simp only [jobCount_of_jobs hj]
  exact h.of_rings hr r

theorem RingsSound.putJob {s : State} {j : JobId} {b c : Job} (h : RingsSound s)
    (hb : s.job j = some b) (hr : c.ring = b.ring) : RingsSound (s.putJob j (some c)) := fun k => by
  simp only [jobCount_putJob_same (f := fun b => decide (b.ring = k)) hb (by rw [hr])]
  exact h k

/-- Each change keeps the references of rings. -/
theorem RingsSound.change {s t : State} (hc : Change s t) (h : RingsSound s) : RingsSound t := by
  cases hc with
  | plain hp =>
    cases hp with
    | other e => exact h.of_eq e.rings e.jobs
    | job c hb hk => exact h.putJob hb hk.ring
    | session x f hk => exact h
  | fire n extra hb hl => exact h.putJob hb rfl
  | @take r g hr hl hp =>
    have h0 : RingSound _ (some g) := h.at hr
    exact h.putRing h0
  | @empty r g hr hp =>
    have h0 : RingSound _ (some g) := h.at hr
    exact h.putRing h0
  | @createRing r src capacity x base hr hs hl hu =>
    have h0 := h r
    rw [hr] at h0
    have hnew : RingSound (jobCount (fun b => b.ring = r) s) (some (Ring.created x src base capacity)) :=
      ⟨h0.symm, by simp [Ring.created], by simp [Ring.created]⟩
    exact RingsSound.of_eq (h.putRing hnew) (by cases src <;> rfl) (bindSource_only _ _ _).jobs
  | @freeRing r g hr h0 =>
    intro k
    simp only [jobCount_of_jobs (freeRing_only r s).jobs, ring_freeRing]
    by_cases hk : k = r
    · subst hk
      rw [if_pos rfl]
      exact (h.at hr).1.symm.trans h0
    · rw [if_neg hk]; exact h k
  | @orphanRing r g hr h0 =>
    obtain ⟨h1, -, -⟩ := h.at hr
    have h2 : RingSound _ (some { g with owner := none, orphaned := true }) :=
      ⟨h1, by simp, fun _ => h1 ▸ Nat.pos_of_ne_zero h0⟩
    exact h.putRing h2
  | beginLoad base length hl hc => exact h.of_eq rfl rfl
  | moveLoad next hl hv hn => exact h.of_eq rfl rfl
  | endLoad crc hl hv => exact h.of_eq rfl rfl
  | @dropLoad x l hl => exact h.of_eq (freeSet_only l.set s).rings (freeSet_only l.set s).jobs
  | @freeSet c v hv hp h0 => exact h.of_eq (freeSet_only c s).rings (freeSet_only c s).jobs
  | orphanSet hv hp h0 => exact h.of_eq rfl rfl
  | @defineJob j g v d hj hr hv hp hd =>
    have hs := refSet_only d.set (refRing d.ring s)
    have hn := RingsCount.ref h hr fun k => jobCount_define (fun b => decide (b.ring = k)) hj d
    intro k
    simp only [jobCount_putJob_of_jobs (hs.jobs.trans (refRing_only d.ring s).jobs)]
    exact hn.of_rings hs.rings k
  | @redefineJob j b g v d hb hr hv hp hd =>
    have h1 := refRing_only d.ring s
    have h2 := unrefRing_only b.ring (refRing d.ring s)
    have h3 := (refSet_only d.set (unrefRing b.ring (refRing d.ring s))).trans (unrefSet_only b.set _)
    have hn := (RingsCount.ref h hr fun k => rfl).unref fun k =>
      jobCount_redefine (fun c => decide (c.ring = k)) hb d
    intro k
    simp only [jobCount_putJob_of_jobs (h3.jobs.trans (h2.jobs.trans h1.jobs))]
    exact hn.of_rings h3.rings k
  | @deleteJob j b hb =>
    have hs := unrefSet_only b.set (unrefRing b.ring s)
    have hn := RingsCount.unref h fun k => jobCount_delete (fun c => decide (c.ring = k)) hb
    intro k
    simp only [jobCount_putJob_of_jobs (hs.jobs.trans (unrefRing_only b.ring s).jobs)]
    exact hn.of_rings hs.rings k

/-! ### Sets -/

theorem SetsCount.of_sets {n : SetId → Nat} {s t : State} (h : SetsCount n s)
    (hr : t.sets = s.sets) : SetsCount n t := fun c => by
  rw [show t.coef c = s.coef c from congrArg (Table.look · c) hr]
  exact h c

theorem SetsCount.putCoef {n : SetId → Nat} {s : State} {c : SetId} {v : Option CoefSet}
    (h : SetsCount n s) (hv : SetSound (n c) v) : SetsCount n (s.putCoef c v) := fun k => by
  rw [State.coef_putCoef]
  by_cases hk : k = c
  · subst hk; rw [if_pos rfl]; exact hv
  · rw [if_neg hk]; exact h k

theorem SetsCount.at {n : SetId → Nat} {s : State} (h : SetsCount n s) {c : SetId} {v : CoefSet}
    (hv : s.coef c = some v) : SetSound (n c) (some v) := hv ▸ h c

/-- A job more names a READY set. -/
theorem SetsCount.ref {n n' : SetId → Nat} {s : State} {c : SetId} {v : CoefSet} (h : SetsCount n s)
    (hv : s.coef c = some v) (hp : v.phase ≠ .loading)
    (hn : ∀ k, n' k = n k + (decide (c = k)).toNat) : SetsCount n' (refSet c s) := fun k => by
  rw [coef_refSet hv, hn]
  by_cases hk : k = c
  · subst hk; simpa using (h.at hv).ref hp
  · simpa [hk, Ne.symm hk] using h k

/-- A job less names a set. -/
theorem SetsCount.unref {n n' : SetId → Nat} {s : State} {c : SetId} (h : SetsCount n s)
    (hn : ∀ k, n k = n' k + (decide (c = k)).toNat) : SetsCount n' (unrefSet c s) := fun k => by
  have h0 := h k
  rw [hn] at h0
  cases hv : s.coef c with
  | none =>
    have h1 := h c
    rw [hv, hn] at h1
    simp [SetSound] at h1
  | some v =>
    rw [coef_unrefSet hv]
    by_cases hk : k = c
    · subst hk
      rw [hv] at h0
      simp only [decide_true, Bool.toNat_true] at h0
      simpa using h0.unref
    · simpa [hk, Ne.symm hk] using h0

theorem SetsSound.of_eq {s t : State} (h : SetsSound s) (hr : t.sets = s.sets)
    (hj : t.jobs = s.jobs) : SetsSound t := fun c => by
  simp only [jobCount_of_jobs hj]
  exact h.of_sets hr c

theorem SetsSound.putJob {s : State} {j : JobId} {b c : Job} (h : SetsSound s)
    (hb : s.job j = some b) (hr : c.set = b.set) : SetsSound (s.putJob j (some c)) := fun k => by
  simp only [jobCount_putJob_same (f := fun b => decide (b.set = k)) hb (by rw [hr])]
  exact h k

/-- A set that no job names may be freed. -/
theorem SetsSound.freeSet {s : State} {c : SetId} (h : SetsSound s)
    (h0 : jobCount (fun b => b.set = c) s = 0) : SetsSound (freeSet c s) := fun k => by
  simp only [jobCount_of_jobs (freeSet_only c s).jobs, coef_freeSet]
  by_cases hk : k = c
  · subst hk; rw [if_pos rfl]; exact h0
  · rw [if_neg hk]; exact h k

/-- No job names the set of an open load context. -/
theorem SetsSound.unnamed {s : State} (h : SetsSound s) (hl : LoadsSound s) {x : Port} {l : Load}
    (hx : (s.session x).load = some l) : jobCount (fun b => b.set = l.set) s = 0 := by
  obtain ⟨v, hv, hp, -, -⟩ := hl.loads x l hx
  exact (h.at hv).2.1 hp

/-- Each change keeps the references of sets. -/
theorem SetsSound.change {s t : State} (hc : Change s t) (hl : LoadsSound s) (h : SetsSound s) :
    SetsSound t := by
  cases hc with
  | plain hp =>
    cases hp with
    | other e => exact h.of_eq e.sets e.jobs
    | job c hb hk => exact h.putJob hb hk.set
    | session x f hk => exact h
  | fire n extra hb hl => exact h.putJob hb rfl
  | take hr hl hp => exact h.of_eq rfl rfl
  | empty hr hp => exact h.of_eq rfl rfl
  | createRing x base hr hs hl hu => exact h.of_eq (bindSource_only _ _ _).sets (bindSource_only _ _ _).jobs
  | @freeRing r g hr h0 => exact h.of_eq (freeRing_only r s).sets (freeRing_only r s).jobs
  | orphanRing hr h0 => exact h.of_eq rfl rfl
  | @beginLoad x c base length hx hc =>
    have h0 := h c
    rw [hc] at h0
    have hnew : SetSound (jobCount (fun b => b.set = c) s) (some
        { owner := some x, base := base, length := length, refs := 0, phase := .loading }) :=
      ⟨h0.symm, fun _ => h0, by simp [CoefSet.isOrphaned], by simp [CoefSet.isOrphaned]⟩
    exact h.putCoef hnew
  | moveLoad next hl hv hn => exact h.of_eq rfl rfl
  | @endLoad x l v crc hx hv =>
    have h0 := h.unnamed hl hx
    obtain ⟨w, hw, -, ho, -⟩ := hl.loads x l hx
    rw [hv] at hw
    cases hw
    have hnew : SetSound (jobCount (fun b => b.set = l.set) s)
        (some { v with refs := 0, phase := .ready false crc }) :=
      ⟨h0.symm, nofun, by simp [CoefSet.isOrphaned, ho], by simp [CoefSet.isOrphaned]⟩
    exact h.putCoef hnew
  | dropLoad hx => exact h.freeSet (h.unnamed hl hx)
  | freeSet hv hp h0 => exact h.freeSet ((h.at hv).1.symm.trans h0)
  | @orphanSet c v o crc hv hp h0 =>
    obtain ⟨h1, -, -, -⟩ := h.at hv
    have hnew : SetSound (jobCount (fun b => b.set = c) s)
        (some { v with owner := none, phase := .ready true crc }) :=
      ⟨h1, nofun, by simp [CoefSet.isOrphaned], fun _ => h1 ▸ Nat.pos_of_ne_zero h0⟩
    exact h.putCoef hnew
  | @defineJob j g v d hj hr hv hp hd =>
    have h1 := refRing_only d.ring s
    have hn := (SetsCount.of_sets h h1.sets).ref ((h1.coef _).trans hv) hp fun k =>
      jobCount_define (fun b => decide (b.set = k)) hj d
    intro k
    simp only [jobCount_putJob_of_jobs ((refSet_only d.set (refRing d.ring s)).jobs.trans h1.jobs)]
    exact hn k
  | @redefineJob j b g v d hb hr hv hp hd =>
    have h1 := (refRing_only d.ring s).trans (unrefRing_only b.ring _)
    have h2 := (refSet_only d.set (unrefRing b.ring (refRing d.ring s))).trans (unrefSet_only b.set _)
    have hn := ((SetsCount.of_sets h h1.sets).ref ((h1.coef _).trans hv) hp fun k => rfl).unref fun k =>
      jobCount_redefine (fun c => decide (c.set = k)) hb d
    intro k
    simp only [jobCount_putJob_of_jobs (h2.jobs.trans h1.jobs)]
    exact hn k
  | @deleteJob j b hb =>
    have h1 := unrefRing_only b.ring s
    have hn := (SetsCount.of_sets h h1.sets).unref fun k =>
      jobCount_delete (fun c => decide (c.set = k)) hb
    intro k
    simp only [jobCount_putJob_of_jobs ((unrefSet_only b.set (unrefRing b.ring s)).jobs.trans h1.jobs)]
    exact hn k

end Sys2Proof.Machine
end

section
/-! SUPPORT. Each change keeps the load contexts, the bindings, the windows and the capacities (01 R2, R5, R8;
06 R108; 00 Table 0-2). -/

namespace Sys2Proof.Machine

/-! ### Load contexts -/

/-- Owner and length of a set that is LOADING. -/
def loadingOf (o : Option CoefSet) : Option (Option Port × Nat) :=
  o.bind fun v => if v.phase = .loading then some (v.owner, v.length) else none

theorem loadingOf_eq_some {o : Option CoefSet} {w : Option Port} {n : Nat} :
    loadingOf o = some (w, n) ↔ ∃ v, o = some v ∧ v.phase = .loading ∧ v.owner = w ∧ v.length = n := by
  simp [loadingOf, Option.bind_eq_some_iff]

theorem loadsSound_iff (s : State) : LoadsSound s ↔
    (∀ x l, (s.session x).load = some l →
      ∃ n, loadingOf (s.coef l.set) = some (some x, n) ∧ l.next ≤ n) ∧
    (∀ c w n, loadingOf (s.coef c) = some (w, n) →
      ∃ x l, w = some x ∧ (s.session x).load = some l ∧ l.set = c) := by
  constructor
  · intro h
    refine ⟨fun x l hx => ?_, fun c w n hc => ?_⟩
    · obtain ⟨v, hv, hp, ho, hn⟩ := h.loads x l hx
      exact ⟨v.length, loadingOf_eq_some.mpr ⟨v, hv, hp, ho, rfl⟩, hn⟩
    · obtain ⟨v, hv, hp, rfl, rfl⟩ := loadingOf_eq_some.mp hc
      exact h.loading c v hv hp
  · rintro ⟨h1, h2⟩
    refine ⟨fun x l hx => ?_, fun c v hv hp => h2 c _ _ (loadingOf_eq_some.mpr ⟨v, hv, hp, rfl, rfl⟩)⟩
    obtain ⟨n, hn, hle⟩ := h1 x l hx
    obtain ⟨v, hv, hp, ho, rfl⟩ := loadingOf_eq_some.mp hn
    exact ⟨v, hv, hp, ho, hle⟩

/-- The law of the load contexts sees the LOADING sets and the contexts alone. -/
theorem LoadsSound.of_same {s t : State} (h : LoadsSound s)
    (hc : ∀ c, loadingOf (t.coef c) = loadingOf (s.coef c))
    (hl : ∀ x, (t.session x).load = (s.session x).load) : LoadsSound t := by
  rw [loadsSound_iff] at h ⊢
  simpa only [hc, hl] using h

theorem loadingOf_unref {v : CoefSet} : loadingOf v.unref = loadingOf (some v) := by
  unfold CoefSet.unref
  split
  · rename_i h
    have hp : v.phase ≠ .loading := by
      intro e
      simp [CoefSet.isOrphaned, e] at h
    simp [loadingOf, hp]
  · rfl

theorem loadingOf_refSet (c k : SetId) (s : State) :
    loadingOf ((refSet c s).coef k) = loadingOf (s.coef k) := by
  cases hv : s.coef c with
  | none => simp [refSet, hv]
  | some v =>
    rw [coef_refSet hv]
    by_cases hk : k = c
    · subst hk; rw [if_pos rfl, hv]; rfl
    · rw [if_neg hk]

theorem loadingOf_unrefSet (c k : SetId) (s : State) :
    loadingOf ((unrefSet c s).coef k) = loadingOf (s.coef k) := by
  cases hv : s.coef c with
  | none => simp [unrefSet, hv]
  | some v =>
    rw [coef_unrefSet hv]
    by_cases hk : k = c
    · subst hk; rw [if_pos rfl, hv, loadingOf_unref]
    · rw [if_neg hk]

/-- The load contexts after a change of one session's context and of one set's record. -/
theorem LoadsSound.update {s t : State} {x : Port} {c : SetId} (h : LoadsSound s)
    (hc : ∀ k, k ≠ c → loadingOf (t.coef k) = loadingOf (s.coef k))
    (hl : ∀ y, y ≠ x → (t.session y).load = (s.session y).load)
    (hx : ∀ l, (s.session x).load = some l → l.set = c)
    (hs : ∀ w n, loadingOf (s.coef c) = some (w, n) → w = some x)
    (hnew : ((t.session x).load = none ∧ loadingOf (t.coef c) = none) ∨
      ∃ n next, (t.session x).load = some { set := c, next := next } ∧
        loadingOf (t.coef c) = some (some x, n) ∧ next ≤ n) : LoadsSound t := by
  rw [loadsSound_iff] at h ⊢
  obtain ⟨h1, h2⟩ := h
  refine ⟨fun y l hy => ?_, fun k w n hk => ?_⟩
  · by_cases hyx : y = x
    · subst hyx
      rcases hnew with ⟨h0, -⟩ | ⟨n, next, hl', hc', hn⟩
      · rw [h0] at hy; cases hy
      · rw [hl'] at hy
        cases hy
        exact ⟨n, hc', hn⟩
    · rw [hl y hyx] at hy
      obtain ⟨n, hn, hle⟩ := h1 y l hy
      have hne : l.set ≠ c := fun e => hyx (Option.some.inj (hs _ _ (e ▸ hn)))
      exact ⟨n, (hc _ hne).trans hn, hle⟩
  · by_cases hkc : k = c
    · subst hkc
      rcases hnew with ⟨-, h0⟩ | ⟨n', next, hl', hc', -⟩
      · rw [h0] at hk; cases hk
      · rw [hc'] at hk
        cases hk
        exact ⟨x, _, rfl, hl', rfl⟩
    · rw [hc k hkc] at hk
      obtain ⟨y, l, hw, hy, rfl⟩ := h2 k w n hk
      have hyx : y ≠ x := by
        rintro rfl
        exact hkc (hx l hy)
      exact ⟨y, l, hw, (hl y hyx).trans hy, rfl⟩

/-- Each change keeps the load contexts. -/
theorem LoadsSound.change {s t : State} (hc : Change s t) (h : LoadsSound s) : LoadsSound t := by
  have hload := h
  rw [loadsSound_iff] at hload
  obtain ⟨h1, h2⟩ := hload
  -- the set of an open context is LOADING, and its owner is the session of the context
  have own : ∀ x l, (s.session x).load = some l → ∀ w n, loadingOf (s.coef l.set) = some (w, n) →
      w = some x := by
    intro x l hx w n hw
    obtain ⟨m, hm, -⟩ := h1 x l hx
    rw [hm] at hw
    cases hw
    rfl
  cases hc with
  | plain hp =>
    cases hp with
    | other e => exact h.of_same (fun c => by rw [e.coef]) fun x => by rw [e.session]
    | job c hb hk => exact h.of_same (fun _ => rfl) fun _ => rfl
    | session x f hk =>
      refine h.of_same (fun c => rfl) fun y => ?_
      rw [State.session_modSession]
      by_cases hy : y = x
      · subst hy; rw [if_pos rfl, hk.load]
      · rw [if_neg hy]
  | fire n extra hb hl => exact h.of_same (fun _ => rfl) fun _ => rfl
  | take hr hl hp => exact h.of_same (fun _ => rfl) fun _ => rfl
  | empty hr hp => exact h.of_same (fun _ => rfl) fun _ => rfl
  | @createRing r src capacity x base hr hs hl hu =>
    have e := bindSource_only src r (s.putRing r (some (Ring.created x src base capacity)))
    exact h.of_same (fun c => by rw [e.coef]; rfl) fun y => by rw [e.session]; rfl
  | @freeRing r g hr h0 =>
    have e := freeRing_only r s
    exact h.of_same (fun c => by rw [e.coef]) fun x => by rw [e.session]
  | orphanRing hr h0 => exact h.of_same (fun _ => rfl) fun _ => rfl
  | @beginLoad x c base length hx hc =>
    refine h.update (x := x) (c := c) (fun k hk => by simp [putLoad, hk]) (fun y hy => by simp [putLoad, hy])
      (by simp [hx]) (by simp [hc, loadingOf]) (.inr ⟨length, 0, by simp [putLoad], ?_, Nat.zero_le _⟩)
    simp [putLoad, loadingOf]
  | @moveLoad x l v next hx hv hn =>
    obtain ⟨n, hw, hle⟩ := h1 x l hx
    obtain ⟨u, hu, -, -, rfl⟩ := loadingOf_eq_some.mp hw
    rw [hv] at hu
    cases hu
    exact h.update (x := x) (c := l.set) (fun k hk => rfl) (fun y hy => by simp [putLoad, hy])
      (by simp [hx]) (own x l hx) (.inr ⟨v.length, next, by simp [putLoad], hw, hn⟩)
  | @endLoad x l v crc hx hv =>
    exact h.update (x := x) (c := l.set) (fun k hk => by simp [putLoad, hk])
      (fun y hy => by simp [putLoad, hy]) (by simp [hx]) (own x l hx)
      (.inl ⟨by simp [putLoad], by simp [putLoad, loadingOf]⟩)
  | @dropLoad x l hx =>
    have e := freeSet_only l.set s
    refine h.update (x := x) (c := l.set) (fun k hk => by simp [putLoad, hk, coef_freeSet])
      (fun y hy => ?_) (by simp [hx]) (own x l hx)
      (.inl ⟨by simp [putLoad], by simp [putLoad, coef_freeSet, loadingOf]⟩)
    simp [putLoad, hy, e.session]
  | @freeSet c v hv hp h0 =>
    have e := freeSet_only c s
    refine h.of_same (fun k => ?_) fun x => by rw [e.session]
    rw [coef_freeSet]
    by_cases hk : k = c
    · subst hk; simp [hv, loadingOf, hp]
    · rw [if_neg hk]
  | @orphanSet c v o crc hv hp h0 =>
    refine h.of_same (fun k => ?_) fun x => rfl
    rw [State.coef_putCoef]
    by_cases hk : k = c
    · subst hk; simp [hv, loadingOf, hp]
    · rw [if_neg hk]
  | @defineJob j g v d hj hr hv hp hd =>
    have e := refRing_only d.ring s
    refine h.of_same (fun k => ?_) fun x => ?_
    · rw [State.coef_putJob, loadingOf_refSet, e.coef]
    · rw [State.session_putJob, (refSet_only d.set _).session, e.session]
  | @redefineJob j b g v d hb hr hv hp hd =>
    have e := (refRing_only d.ring s).trans (unrefRing_only b.ring _)
    refine h.of_same (fun k => ?_) fun x => ?_
    · rw [State.coef_putJob, loadingOf_unrefSet, loadingOf_refSet, e.coef]
    · rw [State.session_putJob, (unrefSet_only b.set _).session, (refSet_only d.set _).session, e.session]
  | @deleteJob j b hb =>
    have e := unrefRing_only b.ring s
    refine h.of_same (fun k => ?_) fun x => ?_
    · rw [State.coef_putJob, loadingOf_unrefSet, e.coef]
    · rw [State.session_putJob, (unrefSet_only b.set _).session, e.session]

/-- Each change keeps the law of references. -/
theorem ReferenceLaw.change {s t : State} (hc : Change s t) (h : ReferenceLaw s) : ReferenceLaw t := by
  rw [referenceLaw_iff] at h ⊢
  obtain ⟨hr, hs, hl⟩ := h
  exact ⟨hr.change hc, hs.change hc hl, hl.change hc⟩

/-! ### Bindings -/

theorem bindingLaw_iff (s : State) : BindingLaw s ↔
    ∀ c r, s.binding c = some r ↔ (s.ring r).map Ring.source = some (.channel c) := by
  simp only [BindingLaw, Option.map_eq_some_iff]

/-- The law of the bindings sees the bindings and the sources of rings alone. -/
theorem BindingLaw.of_same {s t : State} (h : BindingLaw s) (hb : ∀ c, t.binding c = s.binding c)
    (hr : ∀ r, (t.ring r).map Ring.source = (s.ring r).map Ring.source) : BindingLaw t := by
  rw [bindingLaw_iff] at h ⊢
  simpa only [hb, hr] using h

theorem BindingLaw.putRing {s : State} {r : RingId} {g g' : Ring} (h : BindingLaw s)
    (hr : s.ring r = some g) (hs : g'.source = g.source) : BindingLaw (s.putRing r (some g')) := by
  refine h.of_same (fun c => rfl) fun k => ?_
  rw [State.ring_putRing]
  by_cases hk : k = r
  · subst hk; simp [hr, hs]
  · rw [if_neg hk]

theorem binding_freeRing {r : RingId} {g : Ring} {s : State} (hr : s.ring r = some g) (c : ChannelId) :
    (freeRing r s).binding c = if g.source = .channel c then none else s.binding c := by
  simp only [freeRing, hr]
  cases hs : g.source with
  | host => simp [unbind, State.look_bindings]
  | channel d =>
    by_cases hd : d = c
    · simp [unbind, hd]
    · simp [unbind, hd, Ne.symm hd, State.look_bindings]

/-- A freed ring takes its binding with it (01 R1, R8). -/
theorem BindingLaw.freeRing {s : State} (r : RingId) (h : BindingLaw s) : BindingLaw (freeRing r s) := by
  cases hr : s.ring r with
  | none => simpa only [Machine.freeRing, hr] using h
  | some g =>
    rw [bindingLaw_iff] at h ⊢
    intro c k
    rw [binding_freeRing hr, ring_freeRing]
    by_cases hs : g.source = .channel c
    · have hb : s.binding c = some r := (h c r).mpr (by simp [hr, hs])
      by_cases hk : k = r
      · simp [hs, hk]
      · have := h c k
        simp [hb, Ne.symm hk] at this
        simpa [hs, hk] using this
    · by_cases hk : k = r
      · have := h c k
        simp [hk, hr, hs] at this
        simp [hs, hk, this]
      · simpa [hs, hk] using h c k

theorem BindingLaw.refRing {s : State} (r : RingId) (h : BindingLaw s) : BindingLaw (refRing r s) := by
  cases hr : s.ring r with
  | none => simpa only [Machine.refRing, hr] using h
  | some g =>
    rw [refRing_eq hr]
    exact h.putRing (g' := { g with refs := g.refs + 1 }) hr rfl

theorem BindingLaw.unrefRing {s : State} (r : RingId) (h : BindingLaw s) :
    BindingLaw (unrefRing r s) := by
  cases hr : s.ring r with
  | none => simpa only [Machine.unrefRing, hr] using h
  | some g =>
    have h1 := h.putRing (g' := { g with refs := g.refs - 1 }) hr rfl
    simp only [Machine.unrefRing, hr]
    split
    · exact h1.freeRing r
    · exact h1

/-- A new ring is bound to its channel, which was unbound (01 R8, R17). -/
theorem BindingLaw.create {s : State} {r : RingId} {g : Ring} (h : BindingLaw s)
    (hr : s.ring r = none) (hs : sourceBound g.source s = false) :
    BindingLaw (bindSource g.source r (s.putRing r (some g))) := by
  rw [bindingLaw_iff] at h ⊢
  intro c k
  have hck := h c k
  have hcr := h c r
  cases hsrc : g.source with
  | host =>
    by_cases hk : k = r
    · subst hk
      simp [hr] at hck
      simpa [bindSource, hsrc] using hck
    · simpa [bindSource, hsrc, hk] using hck
  | channel d =>
    simp only [hsrc, sourceBound, Option.isSome_eq_false_iff, Option.isNone_iff_eq_none] at hs
    by_cases hk : k = r
    · subst hk
      simp [hr] at hck
      by_cases hd : c = d
      · simp [bindSource, hsrc, hd]
      · simp [bindSource, hsrc, hd, Ne.symm hd, hck]
    · by_cases hd : c = d
      · subst hd
        simp [hs] at hck
        simpa [bindSource, hk, Ne.symm hk] using hck
      · simpa [bindSource, hd, hk] using hck

/-- Each change keeps the bindings and the rings in agreement. -/
theorem BindingLaw.change {s t : State} (hc : Change s t) (h : BindingLaw s) : BindingLaw t := by
  have sets : ∀ {u v : State}, SetsOnly u v → BindingLaw u → BindingLaw v := fun e hu =>
    hu.of_same e.binding fun r => by rw [e.ring]
  cases hc with
  | plain hp =>
    cases hp with
    | other e => exact h.of_same e.binding fun r => by rw [e.ring]
    | job c hb hk => exact h
    | session x f hk => exact h
  | fire n extra hb hl => exact h
  | @take r g hr hl hp => exact h.putRing (g' := g.taken) hr rfl
  | @empty r g hr hp => exact h.putRing (g' := { g with fill := 0 }) hr rfl
  | @createRing r src capacity x base hr hs hl hu =>
    exact h.create (g := Ring.created x src base capacity) hr hs
  | freeRing hr h0 => exact h.freeRing _
  | @orphanRing r g hr h0 => exact h.putRing (g' := { g with owner := none, orphaned := true }) hr rfl
  | beginLoad base length hl hc => exact h
  | moveLoad next hl hv hn => exact h
  | endLoad crc hl hv => exact h
  | @dropLoad x l hl => exact sets (u := s) (v := freeSet l.set s) (freeSet_only _ _) h
  | @freeSet c v hv hp h0 => exact sets (freeSet_only c s) h
  | orphanSet hv hp h0 => exact h
  | defineJob d hj hr hv hp hd =>
    exact sets (v := refSet d.set (Machine.refRing d.ring s)) (refSet_only _ _) (h.refRing _)
  | @redefineJob j b g v d hb hr hv hp hd =>
    exact sets (v := unrefSet b.set (refSet d.set (Machine.unrefRing b.ring (Machine.refRing d.ring s))))
      ((refSet_only _ _).trans (unrefSet_only _ _)) ((h.refRing _).unrefRing _)
  | @deleteJob j b hb =>
    exact sets (v := unrefSet b.set (Machine.unrefRing b.ring s)) (unrefSet_only _ _) (h.unrefRing _)

end Sys2Proof.Machine
end

section
/-! SUPPORT. Each change keeps the windows and the capacities, and so does each move of a happening (01 R2,
R5; 00 Table 0-2). -/

namespace Sys2Proof.Machine

/-! ### Windows -/

/-- A change of a ring's record that leaves head, fill and capacity. -/
structure RingKept (g g' : Ring) : Prop where
  head : g'.head = g.head
  fill : g'.fill = g.fill
  capacity : g'.capacity = g.capacity

/-- Every ring that is left had the same figures before. -/
def RingsKept (s t : State) : Prop :=
  ∀ r g', t.ring r = some g' → ∃ g, s.ring r = some g ∧ RingKept g g'

/-- Every window that is pinned was pinned by the same job before. -/
def PinsKept (s t : State) : Prop :=
  ∀ j c, t.job j = some c → c.state.pins = true → ∃ b, s.job j = some b ∧ JobKept b c

theorem RingsKept.of_rings {s t : State} (h : t.rings = s.rings) : RingsKept s t := fun r g' hg =>
  ⟨g', (congrArg (Table.look · r) h).symm.trans hg, rfl, rfl, rfl⟩

theorem RingsKept.trans {s t u : State} (h : RingsKept s t) (h' : RingsKept t u) : RingsKept s u :=
  fun r g' hg => by
    obtain ⟨g1, hg1, h1⟩ := h' r g' hg
    obtain ⟨g0, hg0, h0⟩ := h r g1 hg1
    exact ⟨g0, hg0, h1.head.trans h0.head, h1.fill.trans h0.fill, h1.capacity.trans h0.capacity⟩

/-- One record replaced, or gone. -/
theorem RingsKept.putRing {s : State} {r : RingId} {g : Ring} {v : Option Ring} (hr : s.ring r = some g)
    (hv : ∀ g', v = some g' → RingKept g g') : RingsKept s (s.putRing r v) := fun k g' hg => by
  rw [State.ring_putRing] at hg
  split at hg
  · rename_i hk
    exact ⟨g, hk ▸ hr, hv g' hg⟩
  · exact ⟨g', hg, rfl, rfl, rfl⟩

theorem RingsKept.freeRing (r : RingId) (s : State) : RingsKept s (freeRing r s) := fun k g' hg => by
  rw [ring_freeRing] at hg
  split at hg
  · cases hg
  · exact ⟨g', hg, rfl, rfl, rfl⟩

theorem RingsKept.refRing (r : RingId) (s : State) : RingsKept s (refRing r s) := by
  unfold Machine.refRing
  cases hr : s.ring r with
  | none => exact .of_rings rfl
  | some g => exact .putRing hr fun g' hg => by cases hg; exact ⟨rfl, rfl, rfl⟩

theorem RingsKept.unrefRing (r : RingId) (s : State) : RingsKept s (unrefRing r s) := by
  unfold Machine.unrefRing
  cases hr : s.ring r with
  | none => exact .of_rings rfl
  | some g =>
    have h : RingsKept s (s.putRing r (some { g with refs := g.refs - 1 })) :=
      .putRing hr fun g' hg => by cases hg; exact ⟨rfl, rfl, rfl⟩
    simp only
    split
    · exact h.trans (.freeRing _ _)
    · exact h

theorem PinsKept.of_jobs {s t : State} (h : t.jobs = s.jobs) : PinsKept s t := fun j c hc _ =>
  ⟨c, (congrArg (Table.look · j) h).symm.trans hc, .refl c⟩

/-- One job's record replaced by one that pins no new window. -/
theorem PinsKept.putJob {s t : State} {j : JobId} {v : Option Job} (h : t.jobs = s.jobs)
    (hv : ∀ c, v = some c → c.state.pins = true → ∃ b, s.job j = some b ∧ JobKept b c) :
    PinsKept s (t.putJob j v) := fun k c hk hp => by
  rw [State.job_putJob] at hk
  split at hk
  · rename_i hkj
    exact hkj ▸ hv c hk hp
  · exact PinsKept.of_jobs h k c hk hp

/-- A DEFINED job pins no window. -/
theorem PinsKept.putDefined {s t : State} {j : JobId} {d : Job} (h : t.jobs = s.jobs)
    (hd : d.state = .defined) : PinsKept s (t.putJob j (some d)) :=
  .putJob h fun c hc hp => by cases hc; rw [hd] at hp; cases hp

/-- The windows stay present when no ring's figures change and no window is newly pinned. -/
theorem WindowLaw.of_kept {s t : State} (h : WindowLaw s) (hr : RingsKept s t) (hj : PinsKept s t) :
    WindowLaw t := by
  refine ⟨fun r g' hg' => ?_, fun j c g' hc hp hg' => ?_⟩
  · obtain ⟨g, hg, hk⟩ := hr r g' hg'
    rw [hk.head, hk.fill, hk.capacity]
    exact h.ringFill r g hg
  · obtain ⟨b, hb, hk⟩ := hj j c hc hp
    obtain ⟨hpins, hw, hl⟩ := hk.pins hp
    obtain ⟨g, hg, hg0⟩ := hr _ g' hg'
    rw [hk.ring] at hg
    rw [hg0.head, hg0.fill, hw, hl]
    exact h.present j b g hb hpins hg

/-- The windows stay present when one ring's record is replaced so that its figures are lawful and every
window pinned in it stays present. -/
theorem WindowLaw.putRing {s : State} {r : RingId} {g' : Ring} (h : WindowLaw s)
    (hf : g'.fill ≤ g'.head ∧ g'.fill ≤ g'.capacity ∧ g'.head ≤ Config.headLimit ∧
      Config.minCapacity ≤ g'.capacity ∧ g'.capacity ≤ Config.maxCapacity)
    (hw : ∀ j b, s.job j = some b → b.ring = r → b.state.pins = true →
      g'.head - g'.fill ≤ b.windowStart ∧ b.windowStart + b.par.length ≤ g'.head) :
    WindowLaw (s.putRing r (some g')) := by
  refine ⟨fun k g hg => ?_, fun j b g hb hp hg => ?_⟩
  · rw [State.ring_putRing] at hg
    split at hg
    · cases hg; exact hf
    · exact h.ringFill k g hg
  · rw [State.ring_putRing] at hg
    split at hg
    · rename_i hk
      cases hg
      exact hw j b hb hk hp
    · exact h.present j b g hb hp hg

theorem pinsRing_iff {b : Job} {r : RingId} : b.pinsRing r = true ↔ b.ring = r ∧ b.state.pins = true := by
  simp [Job.pinsRing]

theorem headOf_eq {r : RingId} {g : Ring} {s : State} (h : s.ring r = some g) : headOf r s = g.head := by
  simp [headOf, h]

theorem fillOf_eq {r : RingId} {g : Ring} {s : State} (h : s.ring r = some g) : fillOf r s = g.fill := by
  simp [fillOf, h]

/-- A job that fires pins the newest samples of its ring (02 R36). -/
theorem WindowLaw.fire {s : State} {j : JobId} {b : Job} (h : WindowLaw s) (countdown : Nat)
    (extra : Bool) (hl : b.par.length ≤ fillOf b.ring s) :
    WindowLaw (fire j { b with countdown := countdown } (headOf b.ring s) extra s) := by
  refine ⟨fun r g hg => h.ringFill r g hg, fun k c g hc hp hg => ?_⟩
  have hg : s.ring c.ring = some g := hg
  have hc : (if k = j then some { b with
      state := .ready, countdown := countdown, windowStart := headOf b.ring s - b.par.length,
      triggerHead := headOf b.ring s, extra := extra, preempted := false } else s.job k) = some c := by
    rw [← State.job_putJob]; exact hc
  split at hc
  · cases hc
    obtain ⟨hfill, -⟩ := h.ringFill b.ring g hg
    rw [fillOf_eq hg] at hl
    simp only [headOf_eq hg]
    omega
  · exact h.present k c g hc hp hg

/-- Each change keeps every pinned window present. -/
theorem WindowLaw.change {s t : State} (hc : Change s t) (href : ReferenceLaw s) (h : WindowLaw s) :
    WindowLaw t := by
  cases hc with
  | plain hp =>
    cases hp with
    | other e => exact h.of_kept (.of_rings e.rings) (.of_jobs e.jobs)
    | @job j b c hb hk =>
      exact h.of_kept (.of_rings rfl) (.putJob rfl fun c' hc' _ => by cases hc'; exact ⟨b, hb, hk⟩)
    | session x f hk => exact h.of_kept (.of_rings rfl) (.of_jobs rfl)
  | fire countdown extra hb hl => exact h.fire countdown extra hl
  | @take r g hr hl hp =>
    obtain ⟨h1, h2, h3, h4, h5⟩ := h.ringFill r g hr
    refine h.putRing ?_ fun j b hb hbr hpin => ?_
    · simp only [Ring.taken]; omega
    · obtain ⟨h6, h7⟩ := h.present j b g hb hpin (hbr ▸ hr)
      have h8 := hp j b hb (pinsRing_iff.mpr ⟨hbr, hpin⟩)
      simp only [Ring.taken]
      omega
  | @empty r g hr hp =>
    obtain ⟨h1, h2, h3, h4, h5⟩ := h.ringFill r g hr
    refine h.putRing ⟨Nat.zero_le _, Nat.zero_le _, h3, h4, h5⟩ fun j b hb hbr hpin => ?_
    exact absurd (pinsRing_iff.mpr ⟨hbr, hpin⟩) (by simp [hp j b hb])
  | @createRing r src capacity x base hr hs hl hu =>
    have e := bindSource_only src r (s.putRing r (some (Ring.created x src base capacity)))
    refine WindowLaw.of_kept (s := s.putRing r (some (Ring.created x src base capacity)))
      (h.putRing ⟨Nat.le_refl 0, Nat.zero_le _, Nat.zero_le _, hl, hu⟩ fun j b hb hbr _ => ?_)
      (.of_rings (by cases src <;> rfl)) (.of_jobs e.jobs)
    obtain ⟨g, hg⟩ := href.ringNamed j b hb
    rw [hbr, hr] at hg
    cases hg
  | @freeRing r g hr h0 => exact h.of_kept (.freeRing r s) (.of_jobs (freeRing_only r s).jobs)
  | orphanRing hr h0 =>
    exact h.of_kept (.putRing hr fun g' hg => by cases hg; exact ⟨rfl, rfl, rfl⟩) (.of_jobs rfl)
  | beginLoad base length hl hc => exact h.of_kept (.of_rings rfl) (.of_jobs rfl)
  | moveLoad next hl hv hn => exact h.of_kept (.of_rings rfl) (.of_jobs rfl)
  | endLoad crc hl hv => exact h.of_kept (.of_rings rfl) (.of_jobs rfl)
  | @dropLoad x l hl =>
    exact h.of_kept (.of_rings (freeSet_only l.set s).rings) (.of_jobs (freeSet_only l.set s).jobs)
  | @freeSet c v hv hp h0 =>
    exact h.of_kept (.of_rings (freeSet_only c s).rings) (.of_jobs (freeSet_only c s).jobs)
  | orphanSet hv hp h0 => exact h.of_kept (.of_rings rfl) (.of_jobs rfl)
  | @defineJob j g v d hj hr hv hp hd =>
    have e := refSet_only d.set (refRing d.ring s)
    exact h.of_kept ((RingsKept.refRing d.ring s).trans (.of_rings e.rings))
      (.putDefined (e.jobs.trans (refRing_only d.ring s).jobs) hd)
  | @redefineJob j b g v d hb hr hv hp hd =>
    have e := (refRing_only d.ring s).trans (unrefRing_only b.ring _)
    have e' := (refSet_only d.set (unrefRing b.ring (refRing d.ring s))).trans (unrefSet_only b.set _)
    exact h.of_kept
      (((RingsKept.refRing d.ring s).trans (.unrefRing b.ring _)).trans (.of_rings e'.rings))
      (.putDefined (e'.jobs.trans e.jobs) hd)
  | @deleteJob j b hb =>
    have e := unrefSet_only b.set (unrefRing b.ring s)
    exact h.of_kept ((RingsKept.unrefRing b.ring s).trans (.of_rings e.rings))
      (.putJob (e.jobs.trans (unrefRing_only b.ring s).jobs) fun c hc _ => by cases hc)

/-! ### Capacities -/

theorem bounded_iff (s : State) : Bounded s ↔
    s.spWord.length < Config.sampleWordSize ∧
    (∀ p, (s.port p).fifo.length ≤ Config.replyFifoSize ∧ (s.port p).lineErrors ≤ Config.countLimit) ∧
    ∀ x, (s.session x).Within := by
  constructor
  · intro h
    exact ⟨h.word, fun p => ⟨h.fifo p, h.lineErrors p⟩,
      fun x => ⟨h.queue x, h.cache x, h.results x, h.inFlight x, h.retry x⟩⟩
  · rintro ⟨hw, hp, hs⟩
    exact
      { word := hw
        fifo := fun p => (hp p).1
        lineErrors := fun p => (hp p).2
        queue := fun x => (hs x).queue
        cache := fun x => (hs x).cache
        results := fun x => (hs x).results
        inFlight := fun x => (hs x).inFlight
        retry := fun x => (hs x).retry }

/-- What a change of the blocks' records leaves: the ports, the sample word in progress, and every
session's lists within their capacities. -/
structure BoundsKept (s t : State) : Prop where
  ports : t.ports = s.ports
  spWord : t.spWord = s.spWord
  within : ∀ x, (s.session x).Within → (t.session x).Within

theorem BoundsKept.of_sessions {s t : State} (hp : t.ports = s.ports) (hw : t.spWord = s.spWord)
    (hs : t.sessions = s.sessions) : BoundsKept s t :=
  ⟨hp, hw, fun x h => by rwa [show t.session x = s.session x from congrArg (Pair.look · x) hs]⟩

theorem BoundsKept.trans {s t u : State} (h : BoundsKept s t) (h' : BoundsKept t u) : BoundsKept s u :=
  ⟨h'.ports.trans h.ports, h'.spWord.trans h.spWord, fun x hx => h'.within x (h.within x hx)⟩

theorem BoundsKept.of_ringsOnly {s t : State} (e : RingsOnly s t) : BoundsKept s t :=
  .of_sessions e.ports e.spWord e.sessions

theorem BoundsKept.of_setsOnly {s t : State} (e : SetsOnly s t) : BoundsKept s t :=
  .of_sessions e.ports e.spWord e.sessions

theorem BoundsKept.modSession {s : State} {x : Port} {f : Session → Session}
    (h : (s.session x).Within → (f (s.session x)).Within) : BoundsKept s (s.modSession x f) :=
  ⟨rfl, rfl, fun y hy => by
    rw [State.session_modSession]
    split
    · rename_i hyx
      exact h (hyx ▸ hy)
    · exact hy⟩

theorem BoundsKept.putLoad (s : State) (x : Port) (l : Option Load) : BoundsKept s (putLoad x l s) :=
  .modSession fun h => ⟨h.queue, h.cache, h.results, h.inFlight, h.retry⟩

/-- Each change keeps ports, word in progress and capacities. -/
theorem Change.boundsKept {s t : State} (hc : Change s t) : BoundsKept s t := by
  cases hc with
  | plain hp =>
    cases hp with
    | other e => exact .of_sessions e.ports e.spWord e.sessions
    | job c hb hk => exact .of_sessions rfl rfl rfl
    | session x f hk => exact .modSession hk.within
  | fire n extra hb hl => exact .of_sessions rfl rfl rfl
  | take hr hl hp => exact .of_sessions rfl rfl rfl
  | empty hr hp => exact .of_sessions rfl rfl rfl
  | createRing x base hr hs hl hu =>
    exact .of_ringsOnly ((putRing_only _ _ _).trans (bindSource_only _ _ _))
  | freeRing hr h0 => exact .of_ringsOnly (freeRing_only _ s)
  | orphanRing hr h0 => exact .of_sessions rfl rfl rfl
  | beginLoad base length hl hc => exact (BoundsKept.of_setsOnly (putCoef_only _ _ _)).trans (.putLoad _ _ _)
  | moveLoad next hl hv hn => exact .putLoad _ _ _
  | endLoad crc hl hv => exact (BoundsKept.of_setsOnly (putCoef_only _ _ _)).trans (.putLoad _ _ _)
  | dropLoad hl => exact (BoundsKept.of_setsOnly (freeSet_only _ _)).trans (.putLoad _ _ _)
  | freeSet hv hp h0 => exact .of_setsOnly (freeSet_only _ s)
  | orphanSet hv hp h0 => exact .of_sessions rfl rfl rfl
  | defineJob d hj hr hv hp hd =>
    exact ((BoundsKept.of_ringsOnly (refRing_only _ _)).trans (.of_setsOnly (refSet_only _ _))).trans
      (.of_sessions rfl rfl rfl)
  | redefineJob d hb hr hv hp hd =>
    exact ((BoundsKept.of_ringsOnly ((refRing_only _ _).trans (unrefRing_only _ _))).trans
      (.of_setsOnly ((refSet_only _ _).trans (unrefSet_only _ _)))).trans (.of_sessions rfl rfl rfl)
  | deleteJob hb =>
    exact ((BoundsKept.of_ringsOnly (unrefRing_only _ _)).trans (.of_setsOnly (unrefSet_only _ _))).trans
      (.of_sessions rfl rfl rfl)

/-- A chain of changes leaves the ports. -/
theorem Changes.boundsKept {s t : State} (h : Changes s t) : BoundsKept s t :=
  h.keeps (P := BoundsKept s) (fun hc hk => hk.trans hc.boundsKept) (.of_sessions rfl rfl rfl)

/-! ### The moves of a happening -/

theorem Session.within_closed : Session.closed.Within := by constructor <;> simp [Session.closed]

@[simp] theorem job_resetDevice (baud : Level) (lines : Lines) (s : State) (j : JobId) :
    (resetDevice baud lines s).job j = none := Table.look_replicate none j

@[simp] theorem ring_resetDevice (baud : Level) (lines : Lines) (s : State) (r : RingId) :
    (resetDevice baud lines s).ring r = none := Table.look_replicate none r

@[simp] theorem coef_resetDevice (baud : Level) (lines : Lines) (s : State) (c : SetId) :
    (resetDevice baud lines s).coef c = none := Table.look_replicate none c

@[simp] theorem binding_resetDevice (baud : Level) (lines : Lines) (s : State) (c : ChannelId) :
    (resetDevice baud lines s).binding c = none := Table.look_replicate none c

@[simp] theorem session_resetDevice (baud : Level) (lines : Lines) (s : State) (x : Port) :
    (resetDevice baud lines s).session x = Session.closed := by cases x <;> rfl

@[simp] theorem port_resetDevice (baud : Level) (lines : Lines) (s : State) (p : Port) :
    (resetDevice baud lines s).port p = PortState.reset := by cases p <;> rfl

/-- Each move keeps the law of references. -/
theorem ReferenceLaw.move {s t : State} (hm : Move s t) (h : ReferenceLaw s) : ReferenceLaw t := by
  cases hm with
  | change hc => exact h.change hc
  | word l hl => exact ⟨h.1, h.2, h.3, h.4, h.5, h.6, h.7, h.8⟩
  | port p f hk => exact ⟨h.1, h.2, h.3, h.4, h.5, h.6, h.7, h.8⟩
  | place f hf => exact ⟨h.1, h.2, h.3, h.4, h.5, h.6, h.7, h.8⟩
  | reset baud lines => constructor <;> simp [Session.closed]

/-- Each move keeps the bindings and the rings in agreement. -/
theorem BindingLaw.move {s t : State} (hm : Move s t) (h : BindingLaw s) : BindingLaw t := by
  cases hm with
  | change hc => exact h.change hc
  | word l hl => exact h
  | port p f hk => exact h
  | place f hf => exact h
  | reset baud lines => intro c r; simp

/-- Each move keeps every pinned window present. -/
theorem WindowLaw.move {s t : State} (hm : Move s t) (href : ReferenceLaw s) (h : WindowLaw s) :
    WindowLaw t := by
  cases hm with
  | change hc => exact h.change hc href
  | word l hl => exact h.of_kept (.of_rings rfl) (.of_jobs rfl)
  | port p f hk => exact h.of_kept (.of_rings rfl) (.of_jobs rfl)
  | place f hf => exact h.of_kept (.of_rings rfl) (.of_jobs rfl)
  | reset baud lines => constructor <;> simp

/-- Each move keeps every list within its capacity. -/
theorem Bounded.move {s t : State} (hm : Move s t) (h : Bounded s) : Bounded t := by
  rw [bounded_iff] at h ⊢
  obtain ⟨hword, hports, hsessions⟩ := h
  cases hm with
  | change hc =>
    have e := hc.boundsKept
    refine ⟨e.spWord ▸ hword, fun p => ?_, fun x => e.within x (hsessions x)⟩
    rw [show t.port p = s.port p from congrArg (Pair.look · p) e.ports]
    exact hports p
  | word l hl => exact ⟨hl, hports, hsessions⟩
  | port p f hk =>
    refine ⟨hword, fun y => ?_, hsessions⟩
    rw [State.port_modPort]
    obtain ⟨h1, h2⟩ := hports p
    split
    · exact ⟨hk.fifo.trans h1, hk.lineErrors h2⟩
    · exact hports y
  | @place p f hf =>
    refine ⟨hword, fun y => ?_, hsessions⟩
    obtain ⟨h1, h2⟩ := hports p
    simp only [fifoRoom, decide_eq_true_eq] at hf
    rw [place, State.port_modPort]
    split
    · exact ⟨by simp only [List.length_append, List.length_singleton]; omega, h2⟩
    · exact hports y
  | reset baud lines =>
    refine ⟨by simp [resetDevice, State.afterReset], fun p => ?_, fun x => ?_⟩
    · simp [PortState.reset]
    · rw [session_resetDevice]; exact Session.within_closed

end Sys2Proof.Machine
end

section
/-! SUPPORT. The shared operations as chains of plain changes: the result unit, the run scheduler, evictions,
the notice unit's entries (02, 03, 04, 09). -/

namespace Sys2Proof.Machine

/-! ### What a chain of plain changes leaves -/

/-- Rings, bindings, sets, load contexts, ports and the sample word in progress are the same, and every job
is left with what it names. -/
structure RecordsKept (s t : State) : Prop where
  rings : t.rings = s.rings
  bindings : t.bindings = s.bindings
  sets : t.sets = s.sets
  load : ∀ x, (t.session x).load = (s.session x).load
  job : ∀ j b, s.job j = some b → ∃ c, t.job j = some c ∧ JobKept b c

theorem Plain.kept {s t : State} (h : Plain s t) : RecordsKept s t := by
  cases h with
  | other e =>
    exact ⟨e.rings, e.bindings, e.sets, fun x => by rw [e.session],
      fun j b hb => ⟨b, (e.job j).trans hb, .refl b⟩⟩
  | @job j b c hb hk =>
    refine ⟨rfl, rfl, rfl, fun x => rfl, fun k d hd => ?_⟩
    rw [State.job_putJob]
    by_cases hkj : k = j
    · subst hkj
      rw [hb] at hd
      cases hd
      exact ⟨c, if_pos rfl, hk⟩
    · exact ⟨d, by rw [if_neg hkj, hd], .refl d⟩
  | session x f hk =>
    refine ⟨rfl, rfl, rfl, fun y => ?_, fun j b hb => ⟨b, hb, .refl b⟩⟩
    rw [State.session_modSession]
    split
    · rename_i hy
      rw [hk.load, hy]
    · rfl

theorem Plains.kept {s t : State} (h : Plains s t) : RecordsKept s t := by
  induction h with
  | refl => exact ⟨rfl, rfl, rfl, fun _ => rfl, fun j b hb => ⟨b, hb, .refl b⟩⟩
  | tail _ h ih =>
    have h := h.kept
    refine ⟨h.rings.trans ih.rings, h.bindings.trans ih.bindings, h.sets.trans ih.sets,
      fun x => (h.load x).trans (ih.load x), fun j b hb => ?_⟩
    obtain ⟨c, hc, hk⟩ := ih.job j b hb
    obtain ⟨d, hd, hk'⟩ := h.job j c hc
    exact ⟨d, hd, hk.trans hk'⟩

theorem Plains.ring {s t : State} (h : Plains s t) (r : RingId) : t.ring r = s.ring r :=
  congrArg (Table.look · r) h.kept.rings

/-- A chain of chains: one operation for each element of a list. -/
theorem Plains.foldl {α : Type} {f : State → α → State} (h : ∀ s a, Plains s (f s a)) (l : List α)
    (s : State) : Plains s (l.foldl f s) := by
  induction l generalizing s with
  | nil => exact .refl s
  | cons a l ih => exact (h s a).trans (ih _)

/-- A session's record with no list longer, its retry count no higher and its load context left. -/
theorem ListsKept.of_le {z z' : Session} (hload : z'.load = z.load)
    (hqueue : z'.queue.length ≤ z.queue.length) (hcache : z'.cache.length ≤ z.cache.length)
    (hresults : z'.results.length ≤ z.results.length)
    (hinFlight : z'.inFlight.length ≤ z.inFlight.length) (hretry : z'.retry ≤ z.retry) :
    ListsKept z z' :=
  ⟨hload, fun h => ⟨hqueue.trans h.queue, hcache.trans h.cache, hresults.trans h.results,
    hinFlight.trans h.inFlight, hretry.trans h.retry⟩⟩

/-- A change of pending list, held order list, notice sequence or the like. -/
theorem ListsKept.of_eq {z z' : Session} (hload : z'.load = z.load) (hqueue : z'.queue = z.queue)
    (hcache : z'.cache = z.cache) (hresults : z'.results = z.results)
    (hinFlight : z'.inFlight = z.inFlight) (hretry : z'.retry = z.retry) : ListsKept z z' :=
  .of_le hload (hqueue ▸ le_rfl) (hcache ▸ le_rfl) (hresults ▸ le_rfl) (hinFlight ▸ le_rfl) hretry.le

theorem Plains.pendingList (x : Port) (f : Session → List Entry) (s : State) :
    Plains s (s.modSession x fun z => { z with pendingList := f z }) :=
  .session (.of_eq rfl rfl rfl rfl rfl rfl)

theorem Plains.heldOrder (x : Port) (f : Session → List JobId) (s : State) :
    Plains s (s.modSession x fun z => { z with heldOrder := f z }) :=
  .session (.of_eq rfl rfl rfl rfl rfl rfl)

/-! ### The result unit (04) -/

@[simp] theorem Job.pins_returnState (b : Job) : b.returnState.pins = false := by
  unfold Job.returnState
  split <;> rfl

theorem plains_moveHeld (x : Port) (j : JobId) (rest : List JobId) (s : State)
    (h : (s.session x).results.length < Config.resultQueueSize) : Plains s (moveHeld x j rest s) := by
  unfold moveHeld
  cases hj : s.job j with
  | none => exact .heldOrder x _ s
  | some b =>
    cases hs : b.state with
    | held r =>
      have h1 : Plains s
          (s.modSession x fun z => { z with heldOrder := rest, results := z.results ++ [r] }) :=
        .session ⟨rfl, fun hw => { hw with results := by simpa using h }⟩
      simp only [hs]
      exact h1.trans (.job (b := b) _ hj (.of_not_pins rfl rfl b.pins_returnState))
    | _ => simp only [hs]; exact .heldOrder x _ s

theorem plains_heldMoves (x : Port) (l : List JobId) (s : State) : Plains s (heldMoves x l s) := by
  induction l generalizing s with
  | nil => exact .refl _
  | cons j rest ih =>
    unfold heldMoves
    split
    · rename_i h
      exact (plains_moveHeld x j rest s h).trans (ih _)
    · exact .refl _

theorem plains_heldMove (x : Port) (s : State) : Plains s (heldMove x s) := plains_heldMoves x _ s

theorem plains_resultsCheck (x : Port) (before : List Record) (s : State) :
    Plains s (resultsCheck x before s) := by
  unfold resultsCheck
  simp only
  split
  · exact .pendingList x (fun z => withdrawResults z.pendingList) s
  · split
    · exact .pendingList x (fun z => z.pendingList ++ [.results]) s
    · exact .refl _

/-- Records leave a session's result queue, held ones may move in, and the RESULTS entry follows
(04 R78, R81, R84). -/
theorem plains_removeResults (x : Port) (l : List Record) (p : Prop) [Decidable p] (s : State)
    (h : l.length ≤ (s.session x).results.length) :
    Plains s (resultsCheck x (s.session x).results
      (if p then heldMove x (s.modSession x fun z => { z with results := l })
        else s.modSession x fun z => { z with results := l })) := by
  have h1 : Plains s (s.modSession x fun z => { z with results := l }) :=
    .session (.of_le rfl le_rfl le_rfl h le_rfl le_rfl)
  refine .trans ?_ (plains_resultsCheck _ _ _)
  split
  · exact h1.trans (plains_heldMove _ _)
  · exact h1

theorem plains_purge (x : Port) (j : JobId) (s : State) : Plains s (purge x j s) :=
  plains_removeResults x _ _ s (List.length_filter_le _ _)

theorem plains_removeOldest (x : Port) (k : Nat) (s : State) : Plains s (removeOldest x k s) :=
  plains_removeResults x _ _ s (by simp)

/-- A result enters the unit of the job's owner (04 R76). -/
theorem plains_postResult {j : JobId} {b c : Job} {s : State} (r : Record) (hb : s.job j = some b)
    (hr : c.ring = b.ring) (hs : c.set = b.set) : Plains s (postResult j c r s) := by
  have put : ∀ st : JobState, st.pins = false → Plains s (s.putJob j (some { c with state := st })) :=
    fun st hst => .job (b := b) _ hb (.of_not_pins hr hs hst)
  unfold postResult
  simp only
  split
  · rename_i h
    have queued : Plains (s.putJob j (some { c with state := c.returnState }))
        ((s.putJob j (some { c with state := c.returnState })).modSession c.owner fun z =>
          { z with results := z.results ++ [r] }) :=
      .session ⟨rfl, fun hw => { hw with results := by simpa using h }⟩
    exact ((put _ c.pins_returnState).trans queued).trans (plains_resultsCheck _ _ _)
  · exact (put (.held r) rfl).trans (.heldOrder _ _ _)

/-! ### The run scheduler (03) -/

theorem plains_leaveClass (c : ClassId) (j : JobId) (s : State) : Plains s (leaveClass c j s) :=
  .other ⟨rfl, rfl, rfl, rfl, rfl, rfl, rfl⟩

theorem plains_abandon (j : JobId) (b : Job) (s : State) : Plains s (abandon j b s) := by
  unfold abandon
  cases b.state with
  | ready | parked _ => exact plains_leaveClass _ _ _
  | running => exact .other ⟨rfl, rfl, rfl, rfl, rfl, rfl, rfl⟩
  | defined | armed | held _ => exact .refl _

/-- A job that a run can begin or resume waits for it, and so pins its window (01 R4, 03 R57, R58). -/
theorem pins_of_runOf {j : JobId} {b : Job} {run : Run} (h : runOf j b = some run) :
    b.state.pins = true := by
  unfold runOf at h
  cases hs : b.state <;> simp_all [JobState.pins]

theorem plains_startJob (c : ClassId) (j : JobId) (s : State) : Plains s (startJob c j s) := by
  unfold startJob
  cases hj : s.job j with
  | none => exact .refl _
  | some b =>
    simp only
    cases hr : runOf j b with
    | none => exact .refl _
    | some run =>
      have h1 : Plains s (s.putClass c (s.cls c).tail) := .other ⟨rfl, rfl, rfl, rfl, rfl, rfl, rfl⟩
      exact (h1.trans (.job (b := b) { b with state := .running } hj
        ⟨rfl, rfl, fun _ => ⟨pins_of_runOf hr, rfl, rfl⟩⟩)).trans
          (.other ⟨rfl, rfl, rfl, rfl, rfl, rfl, rfl⟩)

theorem plains_startStep (s : State) : Plains s (startStep s) := by
  unfold startStep
  cases s.psu with
  | some run => exact .refl _
  | none =>
    cases nextToRun s with
    | none => exact .refl _
    | some t => exact plains_startJob _ _ _

/-- The record of a job whose run parks (03 R62). -/
def Job.parked (b : Job) (run : Run) : Job :=
  { b with state := .parked { acc := run.acc, next := run.next, sat := run.sat }, preempted := true }

/-- A run that parks keeps its window, when its job had pinned it (03 R62). -/
theorem plains_park {b : Job} {run : Run} {s : State} (hb : s.job run.job = some b)
    (hp : b.state.pins = true) : Plains s (park b run s) := by
  have h1 : Plains s (s.putJob run.job (some (b.parked run))) :=
    .job (b := b) _ hb ⟨rfl, rfl, fun _ => ⟨hp, rfl, rfl⟩⟩
  exact h1.trans (.other ⟨rfl, rfl, rfl, rfl, rfl, rfl, rfl⟩)

theorem plains_runEnd {b : Job} {run : Run} {s : State} (hb : s.job run.job = some b) :
    Plains s (runEnd b run s) := by
  have h1 : Plains s { s with psu := none } := .other ⟨rfl, rfl, rfl, rfl, rfl, rfl, rfl⟩
  unfold runEnd
  exact (h1.trans (.pendingList b.owner (fun _ => _) _)).trans (plains_postResult (b := b) _ hb rfl rfl)

/-! ### Evictions (01 R11, 02 R39) -/

theorem plains_evict (r : RingId) (s : State) (j : JobId) : Plains s (evict r s j) := by
  unfold evict
  cases hj : s.job j with
  | none => exact .refl _
  | some b =>
    have h := plains_abandon j b s
    obtain ⟨c, hc, hk⟩ := h.kept.job j b hj
    have h1 : Plains (abandon j b s) ((abandon j b s).putJob j (some { b with
        state := b.returnState, lost := bump Config.counterLimit b.lost })) :=
      .job (b := c) _ hc (.of_not_pins hk.ring.symm hk.set.symm b.pins_returnState)
    exact (h.trans h1).trans (.pendingList _ _ _)

theorem plains_evictAll (r : RingId) (js : List JobId) (s : State) : Plains s (evictAll r js s) :=
  .foldl (plains_evict r) js s

/-- A job that still pins a window after an eviction is not the one evicted (02 R39). -/
theorem job_evict_pins {r : RingId} {s : State} {j k : JobId} {c : Job}
    (hc : (evict r s j).job k = some c) (hp : c.state.pins = true) : k ≠ j ∧ s.job k = some c := by
  unfold evict at hc
  cases hj : s.job j with
  | none =>
    rw [hj] at hc
    refine ⟨?_, hc⟩
    rintro rfl
    rw [hj] at hc
    cases hc
  | some b =>
    have ha : ∀ i, (abandon j b s).job i = s.job i := by
      intro i
      unfold abandon
      cases b.state <;> rfl
    simp only [hj, State.job_modSession, State.job_putJob, ha] at hc
    split at hc
    · cases hc
      simp at hp
    · rename_i hk
      exact ⟨hk, hc⟩

/-- A job that still pins a window after evictions is none of the victims. -/
theorem job_evictAll_pins {r : RingId} {js : List JobId} {s : State} {k : JobId} {c : Job}
    (hc : (evictAll r js s).job k = some c) (hp : c.state.pins = true) : k ∉ js ∧ s.job k = some c := by
  induction js generalizing s with
  | nil => exact ⟨List.not_mem_nil, hc⟩
  | cons j js ih =>
    obtain ⟨h1, h2⟩ := ih (s := evict r s j) hc
    obtain ⟨h3, h4⟩ := job_evict_pins h2 hp
    exact ⟨by simp [h3, h1], h4⟩

theorem mem_pinners {r : RingId} {q : Nat → Bool} {s : State} {j : JobId} {b : Job}
    (hb : s.job j = some b) (hp : b.pinsRing r = true) (hq : q b.windowStart = true) :
    j ∈ pinners r q s :=
  List.mem_filter.mpr ⟨mem_allJobs j, by simp [hb, hp, hq]⟩

/-- The jobs that pin a ring after the eviction of its pinning jobs with a property lack it. -/
theorem not_of_evicted {r : RingId} {q : Nat → Bool} {s : State} {j : JobId} {b : Job}
    (hb : (evictAll r (pinners r q s) s).job j = some b) (hp : b.pinsRing r = true) :
    q b.windowStart = false := by
  obtain ⟨h1, h2⟩ := job_evictAll_pins hb (pinsRing_iff.mp hp).2
  by_contra hq
  exact h1 (mem_pinners h2 hp (by simpa using hq))

/-! ### Notices (09) -/

theorem plains_setTimer (x : Port) (s : State) : Plains s (setTimer x s) :=
  .session (.of_eq rfl rfl rfl rfl rfl rfl)

theorem plains_reportClass (e : Entry) (s : State) : Plains s (reportClass e s) := by
  unfold reportClass
  cases e with
  | alert j c v run n =>
    cases hj : s.job j with
    | none => simp only [hj]; exact .refl _
    | some b =>
      cases hw : b.watch with
      | none => simp only [hj, hw]; exact .refl _
      | some w => simp only [hj, hw]; exact .job (b := b) _ hj ⟨rfl, rfl, fun h => ⟨h, rfl, rfl⟩⟩
  | fault j r n => exact .refl _
  | overrun j n => exact .refl _
  | results => exact .refl _

theorem plains_sendEntry (x : Port) (e : Entry) (rest : List Entry) (s : State)
    (h : (s.session x).inFlight.length < Config.inFlightSize) : Plains s (sendEntry x e rest s) := by
  have hs : (reportClass e s).session x = s.session x := by
    unfold reportClass
    cases e with
    | alert j c v run n =>
      cases hj : s.job j with
      | none => simp only [hj]
      | some b => cases hw : b.watch <;> simp only [hj, hw, State.session_putJob]
    | fault j r n => rfl
    | overrun j n => rfl
    | results => rfl
  exact (plains_reportClass e s).trans
    (.session ⟨rfl, fun hw => { hw with inFlight := by simpa [hs] using h }⟩)

theorem unmarkFirst_length (l : List Notice) : (unmarkFirst l).length = l.length := by
  induction l with
  | nil => rfl
  | cons n rest ih => unfold unmarkFirst; split <;> simp [ih]

theorem plains_resend (x : Port) (s : State) : Plains s (resend x s) :=
  .session (.of_le rfl le_rfl le_rfl le_rfl (unmarkFirst_length _).le le_rfl)

theorem plains_noticeSent (x : Port) (f : Frame) (s : State) : Plains s (noticeSent x f s) := by
  unfold noticeSent
  split
  · exact (Plains.session (.of_le rfl le_rfl le_rfl le_rfl (by simp) le_rfl)).trans (plains_setTimer _ _)
  · exact .refl _

end Sys2Proof.Machine
end

section
/-! SUPPORT. The operations on rings, sets and jobs, the teardown and the blocks of the commands as chains of
changes (01, 02, 06, 08 R149). -/

namespace Sys2Proof.Machine

/-! ### Triggers, countdowns and samples (01 R12 to R16, 02 R34 to R37) -/

theorem changes_trigger {j : JobId} {b : Job} {s : State} (hb : s.job j = some b) (countdown : Nat) :
    Changes s (trigger j { b with countdown := countdown } (headOf b.ring s) (fillOf b.ring s) s) := by
  by_cases hl : fillOf b.ring s < b.par.length
  · rw [trigger_skipped (b := { b with countdown := countdown }) s hl]
    exact .job (b := b) _ hb ⟨rfl, rfl, fun h => ⟨h, rfl, rfl⟩⟩
  have hl := Nat.le_of_not_lt hl
  by_cases ha : b.state = .armed
  · rw [trigger_fires (b := { b with countdown := countdown }) s hl ha]
    exact (Change.fire countdown false hb hl).changes
  by_cases hd : b.state = .defined
  · have h1 : trigger j { b with countdown := countdown } (headOf b.ring s) (fillOf b.ring s) s =
        s.putJob j (some { b with countdown := countdown }) := by
      simp [trigger, Nat.not_lt.mpr hl, hd]
    rw [h1]
    exact .job (b := b) _ hb ⟨rfl, rfl, fun h => ⟨h, rfl, rfl⟩⟩
  · rw [trigger_missed (b := { b with countdown := countdown }) s hl ha hd]
    refine Changes.trans (t := s.putJob j (some { b with
      countdown := countdown, missed := bump Config.counterLimit b.missed })) ?_ ?_
    · exact .job (b := b) _ hb ⟨rfl, rfl, fun h => ⟨h, rfl, rfl⟩⟩
    · exact (Plains.pendingList b.owner (fun z => requestOverrun j z.pendingList) _).changes

theorem changes_countdownJob (r : RingId) (s : State) (j : JobId) :
    Changes s (countdownJob r (headOf r s) (fillOf r s) s j) := by
  unfold countdownJob
  cases hj : s.job j with
  | none => exact .refl s
  | some b =>
    simp only
    split
    · rename_i h
      obtain ⟨-, rfl⟩ := h
      split
      · exact changes_trigger hj _
      · exact .job (b := b) _ hj ⟨rfl, rfl, fun h => ⟨h, rfl, rfl⟩⟩
    · exact .refl s

/-- A countdown step leaves the rings. -/
theorem rings_countdownJob (r : RingId) (head fill : Nat) (s : State) (j : JobId) :
    (countdownJob r head fill s j).rings = s.rings := by
  unfold countdownJob
  cases s.job j with
  | none => rfl
  | some b =>
    simp only
    split
    · split
      · simp only [trigger]
        split
        · rfl
        · cases b.state <;> rfl
      · rfl
    · rfl

theorem changes_countdownJobs (r : RingId) (l : List JobId) (s : State) :
    Changes s (l.foldl (countdownJob r (headOf r s) (fillOf r s)) s) := by
  induction l generalizing s with
  | nil => exact .refl s
  | cons j l ih =>
    have hr := rings_countdownJob r (headOf r s) (fillOf r s) s j
    have hhead : headOf r (countdownJob r (headOf r s) (fillOf r s) s j) = headOf r s :=
      congrArg (fun t => ((Table.look t r).map Ring.head).getD 0) hr
    have hfill : fillOf r (countdownJob r (headOf r s) (fillOf r s) s j) = fillOf r s :=
      congrArg (fun t => ((Table.look t r).map Ring.fill).getD 0) hr
    have h := ih (countdownJob r (headOf r s) (fillOf r s) s j)
    rw [hhead, hfill] at h
    exact (changes_countdownJob r s j).trans h

/-- A sample that overwrites no pinned window is stored and counted (01 R2, R5, R13). -/
theorem changes_writeSample {r : RingId} {g : Ring} {s : State} (v : Word16) (hr : s.ring r = some g)
    (hl : g.head < Config.headLimit)
    (hp : ∀ j b, s.job j = some b → b.pinsRing r = true →
      g.capacity ≤ g.head → g.head - g.capacity < b.windowStart) :
    Changes s (writeSample r g v s) := by
  have h1 : Changes s { s with sampleMem := s.sampleMem.write (g.base + g.head % g.capacity) v } :=
    .other ⟨rfl, rfl, rfl, rfl, rfl, rfl, rfl⟩
  have h2 := h1.trans (Change.take
    (s := { s with sampleMem := s.sampleMem.write (g.base + g.head % g.capacity) v }) hr hl hp).changes
  have h3 := changes_countdownJobs r allJobs
    ({ s with sampleMem := s.sampleMem.write (g.base + g.head % g.capacity) v }.putRing r (some g.taken))
  rw [headOf_eq (g := g.taken) (by simp), fillOf_eq (g := g.taken) (by simp)] at h3
  exact h2.trans h3

/-- A sample that may be written leaves the head below its limit and every pinned window alone (01 R15). -/
theorem mayWrite_iff {r : RingId} {g : Ring} {s : State} : mayWrite r g s = true ↔
    g.head < Config.headLimit ∧ ∀ p, pin r s = some p → g.capacity ≤ g.head → g.head - g.capacity < p := by
  unfold mayWrite
  by_cases hl : Config.headLimit ≤ g.head
  · simp [hl]
  · cases hp : pin r s with
    | none => simp [Nat.lt_of_not_le hl]
    | some p => simp [Nat.lt_of_not_le hl]; omega

theorem changes_writeSamples (r : RingId) (ws : List Word16) (n : Nat) (s : State) :
    Changes s (writeSamples r ws n s).2 := by
  induction ws generalizing n s with
  | nil => exact .refl s
  | cons v ws ih =>
    unfold writeSamples
    cases hr : s.ring r with
    | none => exact .refl s
    | some g =>
      simp only
      split
      · rename_i hm
        obtain ⟨hl, hp⟩ := mayWrite_iff.mp hm
        refine (changes_writeSample v hr hl fun j b hb hpin hc => ?_).trans (ih _ _)
        cases hq : pin r s with
        | none => simp [pin_eq_none hq j b hb] at hpin
        | some p => exact (hp p hq hc).trans_le ((pin_eq_some hq).2 j b hb hpin)
      · exact .refl s

/-- A sample arriving on a bound channel, less the end of its happening (01 R12). -/
theorem changes_arrival {r : RingId} {g : Ring} {s : State} (v : Word16) (hr : s.ring r = some g)
    (hl : g.head < Config.headLimit) : Changes s (writeSample r g v (evictOverwritten r g s)) := by
  unfold evictOverwritten
  split
  · have h := plains_evictAll r (pinners r (fun w => w ≤ g.head - g.capacity) s) s
    refine h.changes.trans (changes_writeSample v ((h.ring r).trans hr) hl fun j b hb hp hc => ?_)
    have := not_of_evicted hb hp
    simp only [decide_eq_false_iff_not] at this
    omega
  · rename_i hc
    exact changes_writeSample v hr hl fun j b hb hp hc' => absurd hc' hc

/-! ### Deletion and teardown (02 R45, 08 R149) -/

theorem plains_endFire (j : JobId) (b : Job) (s : State) : Plains s (endFire j b s) := by
  unfold endFire
  cases b.state with
  | held r => exact .heldOrder _ _ _
  | _ => exact plains_abandon _ _ _

/-- Steps 1 to 3 of the deletion of a job: no record of another table changes (02 R45). -/
theorem plains_deleteJob_before (j : JobId) (b : Job) (s : State) :
    Plains s ((purge b.owner j (endFire j b s)).modSession b.owner fun z =>
      { z with pendingList := withdrawJob j z.pendingList }) :=
  ((plains_endFire j b s).trans (plains_purge _ _ _)).trans (.pendingList _ _ _)

theorem changes_deleteJob (j : JobId) (s : State) : Changes s (deleteJob j s) := by
  unfold deleteJob
  cases hj : s.job j with
  | none => exact .refl s
  | some b =>
    have h := plains_deleteJob_before j b s
    obtain ⟨c, hc, hk⟩ := h.kept.job j b hj
    have h' := (Change.deleteJob hc).changes
    rw [hk.ring, hk.set] at h'
    exact h.changes.trans h'

theorem load_deleteJob (j : JobId) (s : State) (x : Port) :
    ((deleteJob j s).session x).load = (s.session x).load := by
  unfold deleteJob
  cases hj : s.job j with
  | none => rfl
  | some b =>
    simp only
    rw [State.session_putJob, (unrefSet_only _ _).session, (unrefRing_only _ _).session]
    exact (plains_deleteJob_before j b s).kept.load x

/-- A chain of changes that leaves the load contexts. -/
structure ChangesKeepingLoads (s t : State) : Prop where
  changes : Changes s t
  load : ∀ x, (t.session x).load = (s.session x).load

theorem ChangesKeepingLoads.refl (s : State) : ChangesKeepingLoads s s := ⟨.refl s, fun _ => rfl⟩

theorem ChangesKeepingLoads.trans {s t u : State} (h : ChangesKeepingLoads s t)
    (h' : ChangesKeepingLoads t u) : ChangesKeepingLoads s u :=
  ⟨h.changes.trans h'.changes, fun x => (h'.load x).trans (h.load x)⟩

theorem ChangesKeepingLoads.foldl {α : Type} {f : State → α → State}
    (h : ∀ s a, ChangesKeepingLoads s (f s a)) (l : List α) (s : State) :
    ChangesKeepingLoads s (l.foldl f s) := by
  induction l generalizing s with
  | nil => exact .refl s
  | cons a l ih => exact (h s a).trans (ih _)

theorem deleteOwned_keepingLoads (x : Port) (s : State) (j : JobId) :
    ChangesKeepingLoads s (deleteOwned x s j) := by
  unfold deleteOwned
  cases s.job j with
  | none => exact .refl s
  | some b =>
    simp only
    split
    · exact ⟨changes_deleteJob j s, load_deleteJob j s⟩
    · exact .refl s

theorem leaveRing_keepingLoads (x : Port) (s : State) (r : RingId) :
    ChangesKeepingLoads s (leaveRing x s r) := by
  unfold leaveRing
  cases hr : s.ring r with
  | none => exact .refl s
  | some g =>
    simp only
    split
    · split
      · rename_i h0
        exact ⟨(Change.freeRing hr h0).changes, fun y => by rw [(freeRing_only r s).session]⟩
      · rename_i h0
        exact ⟨(Change.orphanRing hr h0).changes, fun _ => rfl⟩
    · exact .refl s

theorem leaveSet_keepingLoads (x : Port) (s : State) (c : SetId) :
    ChangesKeepingLoads s (leaveSet x s c) := by
  unfold leaveSet
  cases hv : s.coef c with
  | none => exact .refl s
  | some v =>
    cases hp : v.phase with
    | loading => simp only [hp]; exact .refl s
    | ready o crc =>
      simp only [hp]
      split
      · split
        · rename_i h0
          exact ⟨(Change.freeSet hv (by simp [hp]) h0).changes,
            fun y => by rw [(freeSet_only c s).session]⟩
        · rename_i h0
          exact ⟨(Change.orphanSet hv hp h0).changes, fun _ => rfl⟩
      · exact .refl s

theorem changes_closeLoad (x : Port) (s : State) : Changes s (closeLoad x s) := by
  unfold closeLoad
  cases hl : (s.session x).load with
  | none => exact .refl s
  | some l => exact (Change.dropLoad hl).changes

theorem load_closeLoad (x : Port) (s : State) : ((closeLoad x s).session x).load = none := by
  unfold closeLoad
  cases hl : (s.session x).load with
  | none => exact hl
  | some l => simp

theorem changes_teardown (x : Port) (s : State) : Changes s (teardown x s) := by
  have h := ((ChangesKeepingLoads.foldl (deleteOwned_keepingLoads x) allJobs (closeLoad x s)).trans
    (.foldl (leaveRing_keepingLoads x) allRings _)).trans (.foldl (leaveSet_keepingLoads x) allSets _)
  have hload := (h.load x).trans (load_closeLoad x s)
  exact ((changes_closeLoad x s).trans h.changes).trans
    (Plains.session (f := fun _ => Session.closed) ⟨hload.symm, fun _ => Session.within_closed⟩).changes

theorem changes_teardownIfOpen (x : Port) (s : State) : Changes s (teardownIfOpen x s) := by
  unfold teardownIfOpen
  split
  · exact changes_teardown x s
  · exact .refl s

/-! ### The blocks of the ring commands (01 R14 to R21) -/

theorem changes_ringCreate {x : Port} {args : List Byte} {s : State} {a : Answer}
    (h : ringCreate x args s = some a) : Changes s a.state := by
  unfold ringCreate at h
  split at h
  case h_2 => cases h
  case h_1 id src c0 c1 =>
  cases h
  cases ringId? id with
  | none => exact .refl s
  | some r =>
    simp only
    split
    · exact .refl s
    · rename_i hr
      cases source? src with
      | none => exact .refl s
      | some source =>
        simp only
        split
        · exact .refl s
        · rename_i hc
          split
          · exact .refl s
          · rename_i hs
            cases allocate (leNat [c0, c1]) s.sampleFree with
            | none => exact .refl s
            | some t =>
              have h1 : Changes s { s with sampleFree := t.2 } :=
                .other ⟨rfl, rfl, rfl, rfl, rfl, rfl, rfl⟩
              refine h1.trans (Change.createRing (src := source) x t.1 ?_ ?_ ?_ ?_).changes
              · exact Option.not_isSome_iff_eq_none.mp hr
              · exact Bool.eq_false_iff.mpr hs
              · omega
              · omega

theorem changes_ringDelete {x : Port} {args : List Byte} {s : State} {a : Answer}
    (h : ringDelete x args s = some a) : Changes s a.state := by
  unfold ringDelete at h
  split at h
  case h_2 => cases h
  case h_1 id =>
  cases h
  cases ringId? id with
  | none => exact .refl s
  | some r =>
    simp only
    cases hr : s.ring r with
    | none => exact .refl s
    | some g =>
      simp only
      split
      · exact .refl s
      · split
        · exact .refl s
        · rename_i h0
          exact (Change.freeRing hr (by simpa using h0)).changes

theorem changes_ringFlush {x : Port} {args : List Byte} {s : State} {a : Answer}
    (h : ringFlush x args s = some a) : Changes s a.state := by
  unfold ringFlush at h
  split at h
  case h_2 => cases h
  case h_1 id =>
  cases h
  cases ringId? id with
  | none => exact .refl s
  | some r =>
    simp only
    cases hr : s.ring r with
    | none => exact .refl s
    | some g =>
      simp only
      split
      · exact .refl s
      · have h1 := plains_evictAll r (pinners r (fun _ => true) s) s
        refine h1.changes.trans (Change.empty ((h1.ring r).trans hr) fun j b hb => ?_).changes
        by_contra hp
        exact absurd (not_of_evicted hb (by simpa using hp)) (by simp)

theorem changes_ringWrite {x : Port} {args : List Byte} {s : State} {a : Answer}
    (h : ringWrite x args s = some a) : Changes s a.state := by
  unfold ringWrite at h
  split at h
  case h_2 => cases h
  case h_1 id count rest =>
  cases hw : words16 rest with
  | none => simp [hw] at h
  | some ws =>
    simp only [hw] at h
    split at h
    · cases h
    · cases h
      cases ringId? id with
      | none => exact .refl s
      | some r =>
        simp only
        cases s.ring r with
        | none => exact .refl s
        | some g =>
          simp only
          split
          · exact .refl s
          · split
            · exact .refl s
            · split
              · exact .refl s
              · exact changes_writeSamples r ws 0 s

/-- A block that answers and changes nothing. -/
def ChangesNothing (act : List Byte → State → Option Answer) : Prop :=
  ∀ args s a, act args s = some a → a.state = s

theorem ringRead_changesNothing : ChangesNothing ringRead := by
  intro args s a h
  unfold ringRead at h
  split at h
  case h_2 => cases h
  case h_1 id i0 i1 i2 i3 i4 i5 count =>
  cases h
  cases ringId? id with
  | none => rfl
  | some r =>
    simp only
    cases s.ring r with
    | none => rfl
    | some g =>
      simp only
      split
      · rfl
      · split <;> rfl

theorem ringQuery_changesNothing : ChangesNothing ringQuery := by
  intro args s a h
  unfold ringQuery at h
  split at h
  case h_2 => cases h
  case h_1 id =>
  cases h
  cases ringId? id with
  | none => rfl
  | some r => simp only; cases s.ring r <;> rfl

theorem setQuery_changesNothing : ChangesNothing setQuery := by
  intro args s a h
  unfold setQuery at h
  split at h
  case h_2 => cases h
  case h_1 id =>
  cases h
  cases setId? id with
  | none => rfl
  | some c => simp only; cases s.coef c <;> rfl

theorem jobQuery_changesNothing : ChangesNothing jobQuery := by
  intro args s a h
  unfold jobQuery at h
  split at h
  case h_2 => cases h
  case h_1 id =>
  cases h
  cases jobId? id with
  | none => rfl
  | some j => simp only; cases s.job j <;> rfl

theorem memQuery_changesNothing : ChangesNothing memQuery := by
  intro args s a h
  unfold memQuery at h
  split at h <;> cases h
  rfl

theorem statusBlock_changesNothing (x : Port) : ChangesNothing (statusBlock x) := by
  intro args s a h
  unfold statusBlock at h
  split at h <;> cases h
  rfl

theorem byeBlock_changesNothing : ChangesNothing byeBlock := by
  intro args s a h
  unfold byeBlock at h
  split at h <;> cases h
  rfl

/-! ### The blocks of the set commands (06 R109 to R115) -/

theorem changes_setBegin {x : Port} {args : List Byte} {s : State} {a : Answer}
    (h : setBegin x args s = some a) : Changes s a.state := by
  unfold setBegin at h
  split at h
  case h_2 => cases h
  case h_1 id l0 l1 =>
  cases h
  cases setId? id with
  | none => exact .refl s
  | some c =>
    simp only
    split
    · exact .refl s
    · rename_i hl
      split
      · exact .refl s
      · rename_i hc
        split
        · exact .refl s
        · cases allocate (leNat [l0, l1]) s.coefFree with
          | none => exact .refl s
          | some t =>
            have h1 : Changes s { s with coefFree := t.2 } :=
              .other ⟨rfl, rfl, rfl, rfl, rfl, rfl, rfl⟩
            refine h1.trans (Change.beginLoad t.1 (leNat [l0, l1]) ?_ ?_).changes
            · exact Option.not_isSome_iff_eq_none.mp hl
            · exact Option.not_isSome_iff_eq_none.mp hc

theorem changes_setData {x : Port} {args : List Byte} {s : State} {a : Answer}
    (h : setData x args s = some a) : Changes s a.state := by
  unfold setData at h
  split at h
  case h_2 => cases h
  case h_1 o0 o1 count rest =>
  cases hw : words16 rest with
  | none => simp [hw] at h
  | some ws =>
    simp only [hw] at h
    split at h
    · cases h
    · cases h
      cases hl : (s.session x).load with
      | none => exact .refl s
      | some l =>
        simp only
        cases hv : s.coef l.set with
        | none => exact .refl s
        | some v =>
          simp only
          split
          · exact .refl s
          · split
            · exact .refl s
            · rename_i hn
              split
              · rename_i ho
                have h1 : Changes s { s with coefMem := s.coefMem.writeAll (v.base + leNat [o0, o1]) ws } :=
                  .other ⟨rfl, rfl, rfl, rfl, rfl, rfl, rfl⟩
                exact h1.trans (Change.moveLoad
                  (s := { s with coefMem := s.coefMem.writeAll (v.base + leNat [o0, o1]) ws })
                  (l.next + ws.length) hl hv (by omega)).changes
              · split <;> exact .refl s

theorem changes_setEnd {x : Port} {args : List Byte} {s : State} {a : Answer}
    (h : setEnd x args s = some a) : Changes s a.state := by
  unfold setEnd at h
  split at h
  case h_2 => cases h
  case h_1 k0 k1 =>
  cases h
  cases hl : (s.session x).load with
  | none => exact .refl s
  | some l =>
    simp only
    cases hv : s.coef l.set with
    | none => exact .refl s
    | some v =>
      simp only
      split
      · exact .refl s
      · split
        · exact (Change.endLoad _ hl hv).changes
        · exact (Change.moveLoad 0 hl hv (Nat.zero_le _)).changes

theorem changes_setAbort {x : Port} {args : List Byte} {s : State} {a : Answer}
    (h : setAbort x args s = some a) : Changes s a.state := by
  unfold setAbort at h
  split at h
  case h_2 => cases h
  case h_1 =>
  cases h
  cases hl : (s.session x).load with
  | none => exact .refl s
  | some l => exact (Change.dropLoad hl).changes

theorem changes_setDelete {x : Port} {args : List Byte} {s : State} {a : Answer}
    (h : setDelete x args s = some a) : Changes s a.state := by
  unfold setDelete at h
  split at h
  case h_2 => cases h
  case h_1 id =>
  cases h
  cases setId? id with
  | none => exact .refl s
  | some c =>
    simp only
    cases hv : s.coef c with
    | none => exact .refl s
    | some v =>
      simp only
      split
      · exact .refl s
      · split
        · exact .refl s
        · rename_i hp
          split
          · exact .refl s
          · rename_i h0
            exact (Change.freeSet hv hp (by simpa using h0)).changes

/-! ### The blocks of the job commands (02 R28 to R45, 05 R91) and FETCH (04 R79) -/

/-- A definition names an ACTIVE ring and a READY set (02 R28). -/
theorem defineChecks_ok {d : DefineArgs} {s : State} {r : RingId} {c : SetId} {par : Params}
    (h : defineChecks d s = .ok (r, c, par)) :
    ∃ g v, s.ring r = some g ∧ s.coef c = some v ∧ v.phase ≠ .loading := by
  have ring : ∀ {k g}, defineRing d.ring s = .ok (k, g) → s.ring k = some g := by
    intro k g hk
    unfold defineRing at hk
    cases hid : ringId? d.ring with
    | none => simp [hid] at hk
    | some i =>
      cases hi : s.ring i with
      | none => simp [hid, hi] at hk
      | some g' =>
        simp only [hid, hi] at hk
        split at hk
        · cases hk
        · cases hk; exact hi
  have set : ∀ {k v}, defineSet d.set s = .ok (k, v) → s.coef k = some v ∧ v.phase ≠ .loading := by
    intro k v hk
    unfold defineSet at hk
    cases hid : setId? d.set with
    | none => simp [hid] at hk
    | some i =>
      cases hi : s.coef i with
      | none => simp [hid, hi] at hk
      | some v' =>
        cases hp : v'.phase with
        | loading => simp [hid, hi, hp] at hk
        | ready o crc =>
          simp only [hid, hi, hp] at hk
          split at hk
          · cases hk
          · cases hk; exact ⟨hi, by simp [hp]⟩
  unfold defineChecks at h
  cases hr : defineRing d.ring s with
  | error st => simp [hr] at h
  | ok t =>
    cases hs : defineSet d.set s with
    | error st => simp [hr, hs] at h
    | ok u =>
      simp only [hr, hs] at h
      split at h
      · cases h
      · cases hp : d.params? with
        | none => simp [hp] at h
        | some p =>
          simp only [hp] at h
          cases h
          obtain ⟨hv, hl⟩ := set hs
          exact ⟨t.2, u.2, ring hr, hv, hl⟩

theorem changes_jobDefine {x : Port} {args : List Byte} {s : State} {a : Answer}
    (h : jobDefine x args s = some a) : Changes s a.state := by
  unfold jobDefine at h
  split at h
  case h_2 => cases h
  cases h
  split
  · exact .refl s
  · rename_i j _
    split
    · exact .refl s
    · split
      · exact .refl s
      · rename_i r c par hc
        obtain ⟨g, v, hr, hv, hp⟩ := defineChecks_ok hc
        cases hj : s.job j with
        | none => exact (Change.defineJob (Job.fresh x r c par 0) hj hr hv hp rfl).changes
        | some b =>
          exact (Change.redefineJob (Job.fresh x r c par b.runNumber) hj hr hv hp rfl).changes.trans
            (Plains.pendingList x (fun z => withdrawAlert j z.pendingList) _).changes

/-- The job that the checks of 02 R27 find is a record of the table. -/
theorem ownedJob_ok {x : Port} {id : Byte} {s : State} {j : JobId} {b : Job}
    (h : ownedJob x id s = .ok (j, b)) : s.job j = some b := by
  unfold ownedJob at h
  cases hid : jobId? id with
  | none => simp [hid] at h
  | some k =>
    cases hk : s.job k with
    | none => simp [hid, hk] at h
    | some c =>
      simp only [hid, hk] at h
      split at h
      · cases h
      · cases h; exact hk

theorem changes_jobArm {x : Port} {args : List Byte} {s : State} {a : Answer}
    (h : jobArm x args s = some a) : Changes s a.state := by
  unfold jobArm at h
  split at h
  case h_2 => cases h
  case h_1 id =>
  cases h
  split
  · exact .refl s
  · rename_i j b hj
    split
    · exact .refl s
    · split
      · exact .refl s
      · refine .job (b := b) _ (ownedJob_ok hj) ⟨rfl, rfl, fun hp => ⟨?_, rfl, rfl⟩⟩
        simp only at hp
        split at hp
        · cases hp
        · exact hp

theorem changes_jobStart {x : Port} {args : List Byte} {s : State} {a : Answer}
    (h : jobStart x args s = some a) : Changes s a.state := by
  unfold jobStart at h
  split at h
  case h_2 => cases h
  case h_1 id =>
  cases h
  split
  · exact .refl s
  · rename_i j b hj
    split
    · exact .refl s
    · split
      · exact .refl s
      · rename_i hl
        exact (Change.fire b.countdown true (ownedJob_ok hj) (Nat.le_of_not_lt hl)).changes

@[simp] theorem Job.pins_cancelled (b : Job) : b.cancelled.state.pins = false := by
  unfold Job.cancelled
  cases b.state <;> rfl

theorem changes_jobCancel {x : Port} {args : List Byte} {s : State} {a : Answer}
    (h : jobCancel x args s = some a) : Changes s a.state := by
  unfold jobCancel at h
  split at h
  case h_2 => cases h
  case h_1 id =>
  cases h
  split
  · exact .refl s
  · rename_i j b hj
    have h1 := plains_abandon j b s
    obtain ⟨c, hc, hk⟩ := h1.kept.job j b (ownedJob_ok hj)
    have h2 : Plains (abandon j b s) ((abandon j b s).putJob j (some b.cancelled)) :=
      .job (b := c) _ hc (.of_not_pins hk.ring.symm hk.set.symm b.pins_cancelled)
    exact (h1.trans h2).changes

theorem changes_jobDelete {x : Port} {args : List Byte} {s : State} {a : Answer}
    (h : jobDelete x args s = some a) : Changes s a.state := by
  unfold jobDelete at h
  split at h
  case h_2 => cases h
  case h_1 id =>
  cases h
  split
  · exact .refl s
  · exact changes_deleteJob _ s

theorem plains_putWatch {x : Port} {j : JobId} {b : Job} {s : State} (w : Option Watch)
    (hj : s.job j = some b) : Plains s (putWatch x j b w s) := by
  have h1 : Plains s (s.putJob j (some { b with watch := w })) :=
    .job (b := b) _ hj ⟨rfl, rfl, fun h => ⟨h, rfl, rfl⟩⟩
  exact h1.trans (.pendingList x _ _)

theorem changes_jobWatch {x : Port} {args : List Byte} {s : State} {a : Answer}
    (h : jobWatch x args s = some a) : Changes s a.state := by
  unfold jobWatch at h
  split at h
  case h_2 => cases h
  cases h
  split
  · exact .refl s
  · rename_i j b hj
    simp only
    split
    · exact (plains_putWatch none (ownedJob_ok hj)).changes
    · split
      · exact .refl s
      · split
        · exact .refl s
        · exact (plains_putWatch _ (ownedJob_ok hj)).changes

theorem changes_fetchBlock {x : Port} {args : List Byte} {s : State} {a : Answer}
    (h : fetchBlock x args s = some a) : Changes s a.state := by
  unfold fetchBlock at h
  split at h
  case h_2 => cases h
  case h_1 count =>
  cases h
  simp only
  split
  · exact .refl s
  · exact (plains_removeOldest x _ s).changes

end Sys2Proof.Machine
end

section
/-! SUPPORT. The happenings as chains of moves: ports, sessions, commands, the sample port, and so every step
(03, 08, 09, 10). -/

namespace Sys2Proof.Machine

theorem Moves.other {s t : State} (h : SameRecords s t) : Moves s t := (Plains.other h).moves

theorem Moves.session {s : State} {x : Port} {f : Session → Session}
    (hk : ListsKept (s.session x) (f (s.session x))) : Moves s (s.modSession x f) :=
  (Plains.session hk).moves

theorem Moves.port {s : State} {p : Port} {f : PortState → PortState}
    (hk : PortKept (s.port p) (f (s.port p))) : Moves s (s.modPort p f) := (Move.port p f hk).moves

/-! ### Sending and the transmitters (09 R157, R159; 10 R174 to R180) -/

/-- A fresh offer is made only while fewer than 4 notices are in flight (09 R156). -/
theorem inFlight_of_offer_fresh {x : Port} {s : State} {e : Entry} {rest : List Entry}
    (h : offer x s = .fresh e rest) : (s.session x).inFlight.length < Config.inFlightSize := by
  unfold offer at h
  simp only at h
  split at h
  · split at h
    · cases h
    · split at h
      · split at h
        · assumption
        · cases h
      · cases h
  · cases h

theorem moves_arbiter (p : Port) (s : State) : Moves s (arbiter p s).2 := by
  unfold arbiter
  cases hf : (s.port p).fifo with
  | cons f rest =>
    exact Moves.port (f := fun q => { q with fifo := rest }) ⟨by simp [hf], fun h => h⟩
  | nil =>
    cases ho : offer p s with
    | again n => exact (plains_resend p s).moves
    | fresh e rest => exact (plains_sendEntry p e rest s (inFlight_of_offer_fresh ho)).moves
    | nothing => exact .refl s

theorem moves_askU (s : State) : Moves s (askU s) := by
  unfold askU
  cases s.txU with
  | some f => exact .refl s
  | none => exact (moves_arbiter .u s).trans (.other ⟨rfl, rfl, rfl, rfl, rfl, rfl, rfl⟩)

theorem moves_askS (s : State) : Moves s (askS s) := by
  have h := moves_arbiter .s s
  unfold askS
  rcases ha : arbiter .s s with ⟨f, s'⟩
  rw [ha] at h
  cases f <;> exact h.trans (.other ⟨rfl, rfl, rfl, rfl, rfl, rfl, rfl⟩)

/-- The end of every happening (03 R56, 10 R180). -/
theorem moves_finish (s : State) : Moves s (finish s) := (plains_startStep s).moves.trans (moves_askU _)

theorem moves_endS (s : State) : Moves s (endS s) := by
  unfold endS
  cases s.txS.current with
  | none => exact .refl s
  | some o =>
    simp only
    split
    · have h : Moves s { s with txS := { s.txS with current := none, filler := false } } :=
        .other ⟨rfl, rfl, rfl, rfl, rfl, rfl, rfl⟩
      exact h.trans (plains_noticeSent .s o.frame _).moves
    · exact .refl s

theorem moves_startExchange (s : State) : Moves s (startExchange s) := by
  have h : Moves s (select (endS s)) := (moves_endS s).trans (.other ⟨rfl, rfl, rfl, rfl, rfl, rfl, rfl⟩)
  unfold startExchange
  simp only
  split
  · exact h.trans (moves_askS _)
  · exact h

theorem moves_exchangeS (s : State) : Moves s (exchangeS s) := by
  unfold exchangeS
  simp only
  split <;> exact (moves_startExchange s).trans (.other ⟨rfl, rfl, rfl, rfl, rfl, rfl, rfl⟩)

/-! ### Ports (10 R168 to R179) -/

theorem moves_placeIfRoom (p : Port) (f : Frame) (s : State) : Moves s (placeIfRoom p f s) := by
  unfold placeIfRoom
  split
  · rename_i h
    exact (Move.place f h).moves
  · exact .refl s

theorem moves_clearFifo (p : Port) (s : State) : Moves s (clearFifo p s) :=
  .port ⟨Nat.zero_le _, fun h => h⟩

theorem moves_hunt (p : Port) (rx : Receiver) (s : State) :
    Moves s (s.modPort p fun q => { q with rx := rx }) := .port ⟨le_rfl, fun h => h⟩

theorem bump_le {limit n : Nat} (h : n ≤ limit) : bump limit n ≤ limit := by
  unfold bump
  split <;> omega

theorem moves_lineError (p : Port) (s : State) : Moves s (lineError p s) :=
  .port ⟨le_rfl, bump_le⟩

theorem moves_dropPartial (p : Port) (s : State) : Moves s (dropPartial p s) :=
  (moves_hunt p .hunt s).trans (moves_lineError p _)

theorem moves_breakPartial (p : Port) (s : State) : Moves s (breakPartial p s) := by
  unfold breakPartial
  split
  · exact moves_dropPartial p s
  · exact .refl s

/-! ### Arrivals at a session (08 R133 to R141, 09 R160 to R163) -/

/-- Chains of changes leave the reply FIFOs, and so the room in them. -/
theorem fifoRoom_of_changes {p : Port} {s t : State} (h : Changes s t) : fifoRoom p t = fifoRoom p s := by
  have hp : t.port p = s.port p := congrArg (Pair.look · p) h.boundsKept.ports
  simp only [fifoRoom, hp]

theorem changes_openSession (x : Port) (timeout : Nat) (notify : Bool) (s : State) :
    Changes s (openSession x timeout notify s) :=
  (Plains.session (.of_le rfl le_rfl le_rfl le_rfl le_rfl (Nat.zero_le _))).changes

theorem moves_takeHello {x : Port} (f : Frame) {s : State} (hroom : fifoRoom x s = true) :
    Moves s (takeHello x f s) := by
  have refused : ∀ st, Moves s (place x (replyFrame f.seq st codeHello []) s) := fun st =>
    (Move.place _ hroom).moves
  have opened : ∀ timeout notify g,
      Moves s (place x g (openSession x timeout notify (teardownIfOpen x s))) := fun timeout notify g => by
    have h := (changes_teardownIfOpen x s).trans (changes_openSession x timeout notify _)
    exact h.moves.trans (Move.place g ((fifoRoom_of_changes h).trans hroom)).moves
  unfold takeHello
  simp only
  split
  · split
    · exact refused _
    · split
      · exact refused _
      · split
        · exact refused _
        · exact opened _ _ _
  · exact refused _

theorem moves_accept (x : Port) (f : Frame) (s : State) : Moves s (accept x f s) := by
  unfold accept
  simp only
  split
  · split
    · rename_i h
      have h1 : ListsKept (s.session x) { s.session x with
          queue := (s.session x).queue ++ [{ seq := f.seq, payload := f.payload }]
          expected := (s.session x).expected + 1 } :=
        ⟨rfl, fun hw => { hw with queue := by simpa using h }⟩
      exact Moves.session (f := fun _ => _) h1
    · exact moves_placeIfRoom _ _ _
  · split
    · exact .refl s
    · split <;> exact moves_placeIfRoom _ _ _

theorem moves_arriveCommand (x : Port) (f : Frame) (s : State) : Moves s (arriveCommand x f s) := by
  unfold arriveCommand
  split
  · unfold arriveHello
    split
    · rename_i h
      exact moves_takeHello f h
    · exact .refl s
  · split
    · exact moves_accept x f s
    · exact moves_placeIfRoom _ _ _

theorem younger_length {q : Byte} {l rest : List Notice} (h : younger q l = some rest) :
    rest.length ≤ l.length := by
  induction l with
  | nil => cases h
  | cons n l ih =>
    unfold younger at h
    split at h
    · cases h; simp
    · exact (ih h).trans (by simp)

theorem moves_arriveAck (x : Port) (f : Frame) (s : State) : Moves s (arriveAck x f s) := by
  unfold arriveAck
  split
  · cases hy : younger f.seq (s.session x).inFlight with
    | none => exact .refl s
    | some rest =>
      exact (Moves.session (.of_le rfl le_rfl le_rfl le_rfl (younger_length hy) (Nat.zero_le _))).trans
        (plains_setTimer x _).moves
  · exact .refl s

theorem moves_markAll {x : Port} {s : State} (h : (s.session x).retry < Config.maxRetries) :
    Moves s (markAll x s) := by
  unfold markAll
  refine Moves.trans (.session ⟨rfl, fun hw => ?_⟩) (plains_setTimer x _).moves
  exact { hw with inFlight := by simpa using hw.inFlight, retry := h }

theorem moves_expire (x : Port) (s : State) : Moves s (expire x s) := by
  unfold expire
  split
  · rename_i h
    exact moves_markAll h
  · exact (changes_teardownIfOpen x s).moves.trans (moves_clearFifo x _)

theorem moves_expireOverdue (x : Port) (s : State) : Moves s (expireOverdue x s) := by
  rcases expireOverdue_cases x s with ⟨-, h⟩ | ⟨-, h⟩ <;> rw [h]
  · exact (moves_expire x s).trans (moves_finish _)
  · exact .refl s

/-! ### The execution of a command (08 R143 to R147) -/

theorem fifoRoom_of_served {x : Port} {s : State} (h : served s = some x) : fifoRoom x s = true := by
  have hq : qualifies x s = true := by
    unfold served at h
    cases hu : qualifies .u s <;> cases hs : qualifies .s s <;> rw [hu, hs] at h
    · cases h
    · cases h; exact hs
    · cases h; exact hu
    · cases x
      · exact hu
      · exact hs
  exact (Bool.and_eq_true _ _ ▸ hq).2

/-- The command executed next is the head of the queue of the session served, whose FIFO has room. -/
theorem nextCommand_eq_some {x : Port} {s : State} {c : Command} {rest : List Command}
    (h : nextCommand x s = some (c, rest)) :
    (s.session x).queue = c :: rest ∧ fifoRoom x s = true := by
  unfold nextCommand at h
  split at h
  · rename_i c' rest' hq
    split at h
    · rename_i hs
      cases h
      exact ⟨hq, fifoRoom_of_served hs⟩
    · cases h
  · cases h

theorem plains_takeCommand {x : Port} {s : State} {c : Command} {rest : List Command}
    (h : (s.session x).queue = c :: rest) : Plains s (takeCommand x rest s) := by
  have h1 : Plains s (s.modSession x fun z => { z with queue := rest }) :=
    .session (.of_le rfl (by simp [h]) le_rfl le_rfl le_rfl le_rfl)
  exact h1.trans (.other ⟨rfl, rfl, rfl, rfl, rfl, rfl, rfl⟩)

theorem cacheReply_length {f : Frame} {l : List Frame} (h : l.length ≤ Config.replyCacheSize) :
    (cacheReply f l).length ≤ Config.replyCacheSize := by
  unfold cacheReply
  split
  · simpa using Nat.succ_le_of_lt ‹_›
  · simp only [List.length_append, List.length_tail, List.length_singleton]
    have : 1 ≤ Config.replyCacheSize := by decide
    omega

theorem moves_reply {x : Port} (f : Frame) {s : State} (h : fifoRoom x s = true) :
    Moves s (reply x f s) := by
  have h1 : Moves s (s.modSession x fun z => { z with cache := cacheReply f z.cache }) :=
    .session ⟨rfl, fun hw => { hw with cache := cacheReply_length hw.cache }⟩
  have h2 := Move.place (s := s.modSession x fun z => { z with cache := cacheReply f z.cache }) f h
  exact h1.trans h2.moves

/-- An execution takes the command, lets its block act, and replies (08 R145). -/
theorem moves_execute {x : Port} {code : Byte} {act : List Byte → State → Option Answer} {s t : State}
    (hact : ∀ args u a, act args u = some a → Changes u a.state) (h : execute x code act s = some t) :
    Moves s t := by
  unfold execute at h
  cases hn : nextCommand x s with
  | none => simp [hn] at h
  | some cr =>
    obtain ⟨c, rest⟩ := cr
    obtain ⟨hq, hroom⟩ := nextCommand_eq_some hn
    have htake := (plains_takeCommand hq).changes
    simp only [hn] at h
    split at h
    · split at h
      · rename_i a ha
        cases h
        have hc := htake.trans (hact _ _ _ ha)
        exact hc.moves.trans (moves_reply _ ((fifoRoom_of_changes hc).trans hroom))
      · cases h
        exact htake.moves.trans (moves_reply _ ((fifoRoom_of_changes htake).trans hroom))
    · cases h

theorem moves_runCommand {x : Port} {code : Byte} {act : List Byte → State → Option Answer}
    (hact : ∀ args u a, act args u = some a → Changes u a.state) (s : State) :
    Moves s (runCommand x code act s) := by
  unfold runCommand
  cases h : execute x code act s with
  | none => exact .refl s
  | some t => exact (moves_execute hact h).trans (moves_finish t)

theorem ChangesNothing.changes {act : List Byte → State → Option Answer} (h : ChangesNothing act)
    (args : List Byte) (s : State) (a : Answer) (ha : act args s = some a) : Changes s a.state :=
  h args s a ha ▸ .refl s

theorem moves_badKind (x : Port) (s : State) : Moves s (badKind x s) := by
  unfold badKind
  cases hn : nextCommand x s with
  | none => exact .refl s
  | some cr =>
    obtain ⟨c, rest⟩ := cr
    obtain ⟨hq, hroom⟩ := nextCommand_eq_some hn
    have htake := (plains_takeCommand hq).changes
    simp only
    split
    · exact .refl s
    · exact (htake.moves.trans (moves_reply _ ((fifoRoom_of_changes htake).trans hroom))).trans
        (moves_finish _)

theorem moves_bye (x : Port) (s : State) : Moves s (bye x s) := by
  unfold bye
  cases h : execute x 0x11 byeBlock s with
  | none => exact .refl s
  | some t =>
    have h1 := moves_execute byeBlock_changesNothing.changes h
    refine .trans ?_ (moves_finish _)
    split
    · exact h1.trans (changes_teardown x t).moves
    · exact h1

/-! ### Bytes (10 R168, R169) -/

theorem moves_resolve (p : Port) (f : Frame) (good : Bool) (s : State) : Moves s (resolve p f good s) := by
  unfold resolve
  split
  · exact moves_lineError p s
  · split
    · exact moves_arriveCommand p f s
    · split
      · exact moves_arriveAck p f s
      · split
        · exact .refl s
        · exact moves_lineError p s

theorem moves_deliver (p : Port) (b : Byte) (s : State) : Moves s (deliver p b s) := by
  have h1 : Moves s (exchange p s) := by
    cases p
    · exact .refl s
    · exact moves_exchangeS s
  have h2 : Moves s (noteByteU p (exchange p s)) := h1.trans <| by
    cases p <;> exact .other ⟨rfl, rfl, rfl, rfl, rfl, rfl, rfl⟩
  have h3 := h2.trans (moves_hunt p (((noteByteU p (exchange p s)).port p).rx.take b).1 _)
  unfold deliver
  simp only
  split
  · exact h3
  · exact h3.trans (moves_lineError p _)
  · exact h3.trans (moves_resolve p _ _ _)

theorem moves_hear (p : Port) (b : Byte) (s : State) : Moves s (hear p b s) := by
  have h := (moves_deliver p b s).trans (moves_finish _)
  unfold hear
  simp only
  split
  · exact h.trans (moves_expireOverdue p _)
  · exact h

theorem moves_linkReset (s : State) : Moves s (linkReset s) :=
  (((moves_hunt .u .hunt s).trans (changes_teardownIfOpen .u _).moves).trans (moves_clearFifo .u _)).trans
    (.other ⟨rfl, rfl, rfl, rfl, rfl, rfl, rfl⟩)

theorem moves_timed {due : State → Option Nat} {act : State → State} (hact : ∀ u, Moves u (act u))
    {s t : State} (h : timed due act s = .next t) : Moves s t := by
  rcases timed_cases due act s with ⟨n, -, -, hn⟩ | ⟨-, hn⟩ <;> rw [hn] at h <;> cases h
  · have h1 : Moves s (advanceTo n (endS s)) :=
      (moves_endS s).trans (.other ⟨rfl, rfl, rfl, rfl, rfl, rfl, rfl⟩)
    exact (h1.trans (hact _)).trans (moves_finish _)
  · exact .refl s

/-! ### The sample port (01 R9, R12) -/

theorem moves_sampleArrival (c : ChannelId) (v : Word16) (s : State) : Moves s (sampleArrival c v s) := by
  unfold sampleArrival
  cases s.binding c with
  | none => exact .refl s
  | some r =>
    simp only
    cases hr : s.ring r with
    | none => exact .refl s
    | some g =>
      simp only
      split
      · rename_i hl
        exact (changes_arrival v hr hl).moves.trans (moves_finish _)
      · exact .refl s

theorem moves_clockSample (s : State) (t : SpPeriod) : Moves s (clockSample s t) := by
  unfold clockSample
  split
  · exact (Move.word [t.bit] (by simp)).moves
  · split
    · exact .refl s
    · simp only
      split
      · rename_i h
        exact (Move.word _ h).moves
      · exact (Move.word [] (by decide)).moves.trans (moves_sampleArrival _ _ _)

theorem moves_clockSamples (periods : List SpPeriod) (s : State) :
    Moves s (periods.foldl clockSample s) := by
  induction periods generalizing s with
  | nil => exact .refl s
  | cons t l ih => exact (moves_clockSample s t).trans (ih _)

/-! ### Every step -/

/-- The run in flight with the record of its job (03 R53). -/
theorem job_of_inFlightRun {s : State} {run : Run} {b : Job} (h : inFlightRun s = some (run, b)) :
    s.psu = some run ∧ s.job run.job = some b := by
  unfold inFlightRun at h
  cases hp : s.psu with
  | none => simp [hp] at h
  | some r =>
    simp only [hp, Option.map_eq_some_iff, Prod.mk.injEq] at h
    obtain ⟨c, hc, rfl, rfl⟩ := h
    exact ⟨rfl, hc⟩

/-- A parked run whose job was not RUNNING is the one way in which a command can leave the moves: the law of
the PSU excludes it (03 R53). -/
theorem exec_moves {i : Instr} {s t : State} (h : exec i s = .next t) :
    Moves s t ∨ ∃ run run' b, inFlightRun s = some (run, b) ∧ run'.job = run.job ∧
      Moves (park b run' s) t := by
  have ite : ∀ {p : Prop} [Decidable p] {u : State}, Moves s u →
      (if p then Host.Outcome.next (finish u) else .next s) =
        Host.Outcome.next (φ := Fault) (ρ := Refusal) t → Moves s t := by
    intro p _ u hu hp
    split at hp <;> cases hp
    · exact hu.trans (moves_finish u)
    · exact .refl s
  cases i with
  | rstn baud lines => cases h; exact .inl (Move.reset baud lines).moves
  | sampleArrival periods => cases h; exact .inl (moves_clockSamples periods s)
  | segmentEnd =>
    simp only [exec, execSegmentEnd] at h
    cases hf : inFlightRun s with
    | none => rw [hf] at h; cases h; exact .inl (.refl s)
    | some rb =>
      obtain ⟨run, b⟩ := rb
      simp only [hf] at h
      split at h
      · cases h
        by_cases hw : higherWaiting b.par.priority s = true
        · simp only [segmentEnd, hw, if_true]
          exact .inr ⟨run, _, b, rfl, (addProducts_next s b Config.segment run).2, moves_finish _⟩
        · have h1 : Moves s { s with psu := some (addProducts s b Config.segment run) } :=
            .other ⟨rfl, rfl, rfl, rfl, rfl, rfl, rfl⟩
          simp only [segmentEnd, hw]
          exact .inl (h1.trans (moves_finish _))
      · cases h; exact .inl (.refl s)
  | runEnd =>
    simp only [exec, execRunEnd] at h
    cases hf : inFlightRun s with
    | none => rw [hf] at h; cases h; exact .inl (.refl s)
    | some rb =>
      obtain ⟨run, b⟩ := rb
      simp only [hf] at h
      split at h <;> cases h
      · exact .inl (.refl s)
      · exact .inl ((plains_runEnd (job_of_inFlightRun hf).2).moves.trans (moves_finish _))
  | frameResolution p last =>
    simp only [exec, execFrameResolution] at h
    split at h <;> cases h
    · exact .inl (moves_hear p last s)
    · exact .inl (.refl s)
  | frameLengthError p len => exact .inl (ite (moves_deliver p len s) h)
  | hello p last => exact .inl (ite (moves_deliver p last s) h)
  | badKind x => cases h; exact .inl (moves_badKind x s)
  | bye x => cases h; exact .inl (moves_bye x s)
  | status x => cases h; exact .inl (moves_runCommand (statusBlock_changesNothing x).changes s)
  | ringCreate x => cases h; exact .inl (moves_runCommand (fun _ _ _ => changes_ringCreate) s)
  | ringDelete x => cases h; exact .inl (moves_runCommand (fun _ _ _ => changes_ringDelete) s)
  | ringFlush x => cases h; exact .inl (moves_runCommand (fun _ _ _ => changes_ringFlush) s)
  | ringWrite x => cases h; exact .inl (moves_runCommand (fun _ _ _ => changes_ringWrite) s)
  | ringRead x => cases h; exact .inl (moves_runCommand ringRead_changesNothing.changes s)
  | ringQuery x => cases h; exact .inl (moves_runCommand ringQuery_changesNothing.changes s)
  | setBegin x => cases h; exact .inl (moves_runCommand (fun _ _ _ => changes_setBegin) s)
  | setData x => cases h; exact .inl (moves_runCommand (fun _ _ _ => changes_setData) s)
  | setEnd x => cases h; exact .inl (moves_runCommand (fun _ _ _ => changes_setEnd) s)
  | setAbort x => cases h; exact .inl (moves_runCommand (fun _ _ _ => changes_setAbort) s)
  | setDelete x => cases h; exact .inl (moves_runCommand (fun _ _ _ => changes_setDelete) s)
  | setQuery x => cases h; exact .inl (moves_runCommand setQuery_changesNothing.changes s)
  | memQuery x => cases h; exact .inl (moves_runCommand memQuery_changesNothing.changes s)
  | jobDefine x => cases h; exact .inl (moves_runCommand (fun _ _ _ => changes_jobDefine) s)
  | jobArm x => cases h; exact .inl (moves_runCommand (fun _ _ _ => changes_jobArm) s)
  | jobStart x => cases h; exact .inl (moves_runCommand (fun _ _ _ => changes_jobStart) s)
  | jobCancel x => cases h; exact .inl (moves_runCommand (fun _ _ _ => changes_jobCancel) s)
  | jobDelete x => cases h; exact .inl (moves_runCommand (fun _ _ _ => changes_jobDelete) s)
  | jobQuery x => cases h; exact .inl (moves_runCommand jobQuery_changesNothing.changes s)
  | jobWatch x => cases h; exact .inl (moves_runCommand (fun _ _ _ => changes_jobWatch) s)
  | fetch x => cases h; exact .inl (moves_runCommand (fun _ _ _ => changes_fetchBlock) s)
  | transmitArbiterChoice p =>
    cases p with
    | u => exact .inl (ite (.refl s) h)
    | s => cases h; exact .inl ((moves_startExchange s).trans (moves_finish _))
  | transmissionEnd p =>
    cases p with
    | u =>
      simp only [exec, execTransmissionEnd] at h
      split at h <;> cases h
      · rename_i f _
        have h1 : Moves s { s with txU := none } := .other ⟨rfl, rfl, rfl, rfl, rfl, rfl, rfl⟩
        exact .inl ((h1.trans (plains_noticeSent .u f _).moves).trans (moves_finish _))
      · exact .inl (.refl s)
    | s => exact .inl (ite (moves_endS s) h)
  | noticeTimerExpiry x =>
    exact .inl (moves_timed (due := fun s => (s.session x).timer) (moves_expire x) h)
  | framingError counted =>
    cases h
    have h1 : Moves s { breakPartial .u s with urx := .atSpace (spaceSince counted s) s.ms } :=
      (moves_breakPartial .u s).trans (.other ⟨rfl, rfl, rfl, rfl, rfl, rfl, rfl⟩)
    exact .inl (h1.trans (moves_finish _))
  | interByteGap => exact .inl (moves_timed (moves_dropPartial .u) h)
  | linkReset => exact .inl (moves_timed moves_linkReset h)
  | deselect =>
    have h1 : Moves s (deselect (endS s)) :=
      (moves_endS s).trans (.other ⟨rfl, rfl, rfl, rfl, rfl, rfl, rfl⟩)
    exact .inl (ite (h1.trans (moves_breakPartial .s _)) h)
  | byteDelivered p b => cases h; exact .inl (moves_hear p b s)

/-- What a step can do to the records of the part. -/
theorem step_moves {s t : State} (h : step s = .next t) :
    Moves s t ∨ ∃ l run run' b, inFlightRun s = some (run, b) ∧ run'.job = run.job ∧
      Moves (park b run' { s with pending := l }) t := by
  unfold step at h
  cases hp : s.pending with
  | cons c rest =>
    simp only [hp] at h
    rcases exec_moves h with h | ⟨run, run', b, hf, hj, hm⟩
    · have h1 : Moves s { s with pending := rest } := .other ⟨rfl, rfl, rfl, rfl, rfl, rfl, rfl⟩
      exact .inl (h1.trans h)
    · exact .inr ⟨rest, run, run', b, hf, hj, hm⟩
  | nil =>
    simp only [hp, idle] at h
    cases hd : dueNow s with
    | none => simp only [hd] at h; cases h; exact .inl (.other ⟨rfl, rfl, rfl, rfl, rfl, rfl, rfl⟩)
    | some c =>
      simp only [hd] at h
      rcases exec_moves h with h | ⟨run, run', b, hf, hj, hm⟩
      · exact .inl h
      · exact .inr ⟨s.pending, run, run', b, hf, hj, hm⟩

/-- What every move and every park keep, every step keeps. -/
theorem step_keeps {P : State → Prop} (move : ∀ {u v}, Move u v → P u → P v) {s t : State}
    (park : ∀ l run run' b, inFlightRun s = some (run, b) → run'.job = run.job →
      P (park b run' { s with pending := l })) (hs : P s) (h : step s = .next t) : P t := by
  rcases step_moves h with h | ⟨l, run, run', b, hf, hj, hm⟩
  · exact h.keeps move hs
  · exact hm.keeps move (park l run run' b hf hj)

end Sys2Proof.Machine
end

section
/-! SUPPORT. Every step keeps the laws of references, windows, bindings and capacities (01 R2, R5 to R8; 06
R106 to R108; 00 Table 0-2). -/

namespace Sys2Proof.Machine

/-- A park changes nothing that the law of references speaks of, whatever state the job was in. -/
theorem referenceLaw_park {s : State} {run : Run} {b : Job} (h : ReferenceLaw s)
    (hb : s.job run.job = some b) : ReferenceLaw (park b run s) := by
  rw [referenceLaw_iff] at h ⊢
  obtain ⟨hr, hs, hl⟩ := h
  exact ⟨(hr.putJob (c := b.parked run) hb rfl).of_eq rfl rfl,
    (hs.putJob (c := b.parked run) hb rfl).of_eq rfl rfl,
    hl.of_same (fun _ => rfl) fun _ => rfl⟩

/-- Settles O50: each change of a step keeps the counts, the orphans and the load contexts. -/
theorem stepKeepsTheReferenceLaw : Obligations.StepKeepsTheReferenceLaw := by
  intro s t hs h
  refine step_keeps ReferenceLaw.move (fun l run run' b hf hj => ?_) hs h
  have hpop : Change s { s with pending := l } := .plain (.other ⟨rfl, rfl, rfl, rfl, rfl, rfl, rfl⟩)
  exact referenceLaw_park (hs.change hpop) (hj ▸ (job_of_inFlightRun hf).2)

/-- Settles O52: only creating and freeing a ring touch a binding, and each with its ring. -/
theorem stepKeepsTheBindingLaw : Obligations.StepKeepsTheBindingLaw := by
  intro s t hs h
  exact step_keeps BindingLaw.move (fun _ _ _ _ _ _ => hs) hs h

/-- Settles O56: each list and count grows only where its capacity has been checked. -/
theorem stepKeepsEveryListWithinItsCapacity : Obligations.StepKeepsEveryListWithinItsCapacity := by
  intro s t hs h
  refine step_keeps Bounded.move (fun l run run' b hf hj => ?_) hs h
  rw [bounded_iff] at hs ⊢
  exact hs

/-- Settles O51: samples are taken only where no window is lost, jobs fire only on present samples, and the
only job that parks is the RUNNING one. -/
theorem stepKeepsWindowsPresent : Obligations.StepKeepsWindowsPresent := by
  intro s t hsched href hwin h
  have move : ∀ {u v}, Move u v → ReferenceLaw u ∧ WindowLaw u → ReferenceLaw v ∧ WindowLaw v :=
    fun hm hu => ⟨hu.1.move hm, hu.2.move hm hu.1⟩
  refine (step_keeps move (fun l run run' b hf hj => ?_) ⟨href, hwin⟩ h).2
  obtain ⟨hpsu, hb⟩ := job_of_inFlightRun hf
  obtain ⟨c, hc, hrun⟩ := (hsched.running run.job).mpr ⟨run, hpsu, rfl⟩
  rw [hb] at hc
  cases hc
  have hpop : Moves s { s with pending := l } := .other ⟨rfl, rfl, rfl, rfl, rfl, rfl, rfl⟩
  have hpark : Plains { s with pending := l } (Machine.park b run' { s with pending := l }) :=
    plains_park (hj ▸ hb) (by rw [hrun]; rfl)
  exact (hpop.trans hpark.moves).keeps move ⟨href, hwin⟩

end Sys2Proof.Machine
end

section
/-! SUPPORT. The queries, and RING_CREATE, RING_DELETE, RING_FLUSH and RING_READ (01 R17 to R21, 02 R47,
06 R116, 07 R128, 08 R148). -/

namespace Sys2Proof.Machine

/-- An execution whose block answers with the state `t`, seen past the queue its command has left
(08 R145). -/
theorem runCommand_answered {x : Port} {q code : Byte} {args data : List Byte} {rest : List Command}
    {s t : State} {st : Status} {act : List Byte → State → Option Answer}
    (h : NextIs x q (code :: args) rest s)
    (ha : act args (takeCommand x rest s) =
      some { state := takeCommand x rest t, status := st, data := data }) :
    runCommand x code act s = answered x q st code data rest t := by
  rw [runCommand_answer h ha, reply_same]

/-! ### Queries -/

theorem loadedOf_takeCommand (x : Port) (l : List Command) (c : SetId) (v : CoefSet) (s : State) :
    loadedOf c v (takeCommand x l s) = loadedOf c v s := by
  unfold loadedOf
  cases v.owner with
  | none => rfl
  | some y => simp only [load_takeCommand]

theorem ringQuery_eq (r : RingId) (s : State) : ringQuery [idByte r] s =
    some { state := s, status := .ok, data := idByte r :: match s.ring r with
      | some g => ringFigures g (pin r s)
      | none => zeros 24 } := by
  simp only [ringQuery, ringId?_idByte]
  cases s.ring r <;> rfl

theorem setQuery_eq (c : SetId) (s : State) : setQuery [idByte c] s =
    some { state := s, status := .ok, data := idByte c :: match s.coef c with
      | some v => setFigures v (loadedOf c v s)
      | none => zeros 12 } := by
  simp only [setQuery, setId?_idByte]
  cases s.coef c <;> rfl

theorem jobQuery_eq (j : JobId) (s : State) : jobQuery [idByte j] s =
    some { state := s, status := .ok, data := idByte j :: match s.job j with
      | some b => jobFigures b
      | none => zeros 72 } := by
  simp only [jobQuery, jobId?_idByte]
  cases s.job j <;> rfl

/-- Settles O9: each query's block answers with the state it was given. -/
theorem queriesReportAndChangeNothing : Obligations.QueriesReportAndChangeNothing := by
  intro s x q rest
  refine ⟨fun r h => ?ring, fun c h => ?set, fun j h => ?job, fun h => ?mem, fun h => ?status,
    fun id hid h => ?noRing, fun id hid h => ?noSet, fun id hid h => ?noJob⟩
  case ring => exact congrArg Host.Outcome.next (runCommand_answered h (ringQuery_eq r _))
  case set =>
    refine congrArg Host.Outcome.next (runCommand_answered h ((setQuery_eq c _).trans ?_))
    simp only [coef_takeCommand, loadedOf_takeCommand] <;> rfl
  case job => exact congrArg Host.Outcome.next (runCommand_answered h (jobQuery_eq j _))
  case mem => exact congrArg Host.Outcome.next (runCommand_answered h rfl)
  case status => exact congrArg Host.Outcome.next (runCommand_answered h rfl)
  case noRing =>
    exact congrArg Host.Outcome.next (runCommand_answered h (by simp [ringQuery, ringId?_eq_none hid]))
  case noSet =>
    exact congrArg Host.Outcome.next (runCommand_answered h (by simp [setQuery, setId?_eq_none hid]))
  case noJob =>
    exact congrArg Host.Outcome.next (runCommand_answered h (by simp [jobQuery, jobId?_eq_none hid]))

/-! ### RING_CREATE -/

theorem sourceBound_takeCommand (x : Port) (l : List Command) (src : Source) (s : State) :
    sourceBound src (takeCommand x l s) = sourceBound src s := by cases src <;> rfl

/-- The state that RING_CREATE leaves when every check passes (01 R17). -/
theorem created_takeCommand (x : Port) (l : List Command) (src : Source) (r : RingId) (g : Ring)
    (free : List Extent) (s : State) :
    bindSource src r ({ takeCommand x l s with sampleFree := free }.putRing r (some g)) =
      takeCommand x l (bindSource src r ({ s with sampleFree := free }.putRing r (some g))) := by
  cases src <;> cases x <;> rfl

/-- Settles O10: the checks of RING_CREATE one after another, and first fit by `allocate_first`. -/
theorem ringCreateChecksAndCreates : Obligations.RingCreateChecksAndCreates := by
  intro s x q id src c0 c1 rest h capacity refused
  have hcap : leNat [c0, c1] = capacity := leNat_pair c0 c1
  have refuse : ∀ st, ringCreate x [id, src, c0, c1] (takeCommand x rest s) =
      some { state := takeCommand x rest s, status := st, data := id :: zeros 2 } → refused st :=
    fun st ha => congrArg Host.Outcome.next (runCommand_answered h ha)
  refine ⟨fun hid => refuse _ (by simp [ringCreate, ringId?_eq_none hid]), ?_⟩
  rintro r rfl
  refine ⟨fun hr => refuse _ (by simp [ringCreate, hr]), fun hr => ⟨fun h4 h10 => refuse _ ?_, ?_⟩⟩
  · simp [ringCreate, hr, source?_eq_none h4 h10]
  intro source hsrc
  refine ⟨fun hc => refuse _ ?_, fun hmin hmax => ⟨fun hb => refuse _ ?_, fun hb =>
    ⟨fun hfit => refuse _ ?_, ?_⟩⟩⟩
  · simp [ringCreate, hr, hsrc, hcap, hc]
  · simp [ringCreate, hr, hsrc, hcap, Nat.not_lt.mpr hmin, Nat.not_lt.mpr hmax, sourceBound_takeCommand, hb]
  · simp [ringCreate, hr, hsrc, hcap, Nat.not_lt.mpr hmin, Nat.not_lt.mpr hmax, sourceBound_takeCommand, hb,
      allocate_eq_none hfit]
  · intro pre e post hfree hpre he left
    have hall : allocate capacity s.sampleFree = some (e.base, pre ++ left) :=
      hfree ▸ allocate_first capacity pre post e hpre he
    refine congrArg Host.Outcome.next (runCommand_answered h ?_)
    simp only [ringCreate, ringId?_idByte, ring_takeCommand, hr, hsrc, hcap, sourceBound_takeCommand, hb,
      sampleFree_takeCommand, hall, created_takeCommand, Nat.not_lt.mpr hmin, Nat.not_lt.mpr hmax,
      Option.isSome_none, Bool.false_eq_true, or_self, if_false]
    rfl

/-! ### RING_DELETE and RING_FLUSH -/

theorem foreign_iff {x : Port} {g : Ring} :
    g.foreign x = true ↔ g.orphaned = true ∨ g.owner ≠ some x := by simp [Ring.foreign]

theorem not_foreign {x : Port} {g : Ring} (ho : g.orphaned = false) (hx : g.owner = some x) :
    g.foreign x = false := by simp [Ring.foreign, ho, hx]

/-- Freeing a ring, written out: channel, extent and record (01 R1). -/
theorem freeRing_eq {r : RingId} {g : Ring} {s : State} (hr : s.ring r = some g) :
    freeRing r s = { unbind g.source s with
      sampleFree := freeExtent g.base g.capacity s.sampleFree }.putRing r none := by
  simp only [freeRing, hr]
  cases g.source <;> rfl

theorem freeRing_takeCommand (x : Port) (l : List Command) (r : RingId) (s : State) :
    freeRing r (takeCommand x l s) = takeCommand x l (freeRing r s) := by
  unfold freeRing
  simp only [ring_takeCommand]
  cases s.ring r with
  | none => rfl
  | some g => cases hs : g.source <;> cases x <;> simp only [hs] <;> rfl

/-- Settles O11: the checks of RING_DELETE one after another, and the ring freed. -/
theorem ringDeleteChecksAndFrees : Obligations.RingDeleteChecksAndFrees := by
  intro s x q id rest h refused
  have refuse : ∀ st, ringDelete x [id] (takeCommand x rest s) =
      some { state := takeCommand x rest s, status := st, data := [id] } → refused st :=
    fun st ha => congrArg Host.Outcome.next (runCommand_answered h ha)
  refine ⟨fun hid => refuse _ (by simp [ringDelete, ringId?_eq_none hid]), ?_⟩
  rintro r rfl
  refine ⟨fun hr => refuse _ (by simp [ringDelete, hr]), fun g hr => ⟨fun hf => refuse _ ?_, fun ho hx =>
    ⟨fun h0 => refuse _ ?_, fun h0 => ?_⟩⟩⟩
  · simp [ringDelete, hr, foreign_iff.mpr hf]
  · simp [ringDelete, hr, not_foreign ho hx, h0]
  · have hok : ringDelete x [idByte r] (takeCommand x rest s) =
        some { state := takeCommand x rest (freeRing r s), status := .ok, data := [idByte r] } := by
      simp [ringDelete, hr, not_foreign ho hx, h0, freeRing_takeCommand]
    refine congrArg Host.Outcome.next ((runCommand_answered h hok).trans ?_)
    rw [freeRing_eq hr]
    cases g.source <;> rfl

theorem pinners_takeCommand (x : Port) (l : List Command) (r : RingId) (p : Nat → Bool) (s : State) :
    pinners r p (takeCommand x l s) = pinners r p s := rfl

/-- The victims of a RING_FLUSH are all the pinning jobs of the ring (01 R19). -/
theorem pinners_true (r : RingId) (s : State) : pinners r (fun _ => true) s =
    allJobs.filter fun j => match s.job j with
      | some b => b.pinsRing r
      | none => false := by
  unfold pinners
  congr 1
  funext j
  cases s.job j <;> simp

theorem flushed_takeCommand (x : Port) (l : List Command) (r : RingId) (v : Option Ring) (s : State) :
    (takeCommand x l s).putRing r v = takeCommand x l (s.putRing r v) := by cases x <;> rfl

/-- Settles O13: the checks of RING_FLUSH one after another, the evictions and the empty ring. -/
theorem ringFlushEvictsAndEmpties : Obligations.RingFlushEvictsAndEmpties := by
  intro s x q id rest h refused
  have refuse : ∀ st, ringFlush x [id] (takeCommand x rest s) =
      some { state := takeCommand x rest s, status := st, data := [id, 0] } → refused st :=
    fun st ha => congrArg Host.Outcome.next (runCommand_answered h ha)
  refine ⟨fun hid => refuse _ (by simp [ringFlush, ringId?_eq_none hid]), ?_⟩
  rintro r rfl
  refine ⟨fun hr => refuse _ (by simp [ringFlush, hr]), fun g hr => ⟨fun hf => refuse _ ?_, ?_⟩⟩
  · simp [ringFlush, hr, foreign_iff.mpr hf]
  · intro ho hx victims
    refine congrArg Host.Outcome.next (runCommand_answered h ?_)
    have hv : pinners r (fun _ => true) s = victims := pinners_true r s
    simp [ringFlush, hr, not_foreign ho hx, pinners_takeCommand, evictAll_takeCommand, hv,
      flushed_takeCommand]

/-! ### RING_READ -/

theorem sampleAt_eq {r : RingId} {g : Ring} {s : State} (hr : s.ring r = some g) (i : Nat) :
    sampleAt s r i = s.readSample (g.base + i % g.capacity) := by simp [sampleAt, hr]

/-- Settles O18: the checks of RING_READ one after another, and the samples at their addresses. -/
theorem ringReadReturnsPresentSamples : Obligations.RingReadReturnsPresentSamples := by
  intro s x q id i0 i1 i2 i3 i4 i5 count rest h first refused
  have refuse : ∀ st, ringRead [id, i0, i1, i2, i3, i4, i5, count] (takeCommand x rest s) =
      some { state := takeCommand x rest s, status := st, data := zeros 5 } → refused st :=
    fun st ha => congrArg Host.Outcome.next (runCommand_answered h ha)
  have hfirst : leNat [i0, i1, i2, i3, i4, i5] = first := rfl
  refine ⟨fun hid => refuse _ (by simp [ringRead, ringId?_eq_none hid]), ?_⟩
  rintro r rfl
  refine ⟨fun hr => refuse _ (by simp [ringRead, hr]), fun g hr => ⟨fun hc => refuse _ ?_, fun h0 hc =>
    ⟨fun hn => refuse _ ?_, fun hlo hhi => congrArg Host.Outcome.next (runCommand_answered h ?_)⟩⟩⟩
  · have hc' : count.toNat = 0 ∨ 120 < count.toNat := hc.imp_left fun e => by simp [e]
    simp [ringRead, hr, hc']
  all_goals
    have h0' : count.toNat ≠ 0 := fun e => h0 (BitVec.eq_of_toNat_eq (by simpa using e))
    have hc' : ¬ (count.toNat = 0 ∨ 120 < count.toNat) := by omega
  · simp [ringRead, hr, h0', Nat.not_lt.mpr hc, hfirst, hn]
  · have hn : ¬ (first < g.head - g.fill ∨ g.head < first + count.toNat) := by omega
    have hs : ∀ k, sampleAt (takeCommand x rest s) r (first + k) =
        s.readSample (g.base + (first + k) % g.capacity) := fun k => sampleAt_eq hr _
    simp only [ringRead, ringId?_idByte, ring_takeCommand, hr, hc', hfirst, hn, hs, if_false, bytes16,
      List.flatMap_map]

end Sys2Proof.Machine
end

section
/-! SUPPORT. The sample port: the periods of a word, the sample that is discarded and the one that is taken
(01 R9 to R12). -/

namespace Sys2Proof.Machine

/-! ### Periods -/

/-- A mark begins a new word (01 R9). -/
theorem clockSample_mark (s : State) (b : Bool) :
    clockSample s { mark := true, bit := b } = { s with spWord := [b] } := rfl

/-- A bit outside a word is ignored (01 R9). -/
theorem clockSample_ignored {s : State} (b : Bool) (h : s.spWord = []) :
    clockSample s { mark := false, bit := b } = s := by simp [clockSample, h]

/-- A bit that follows 1 to 16 bits of a word joins them (01 R9). -/
theorem clockSample_bit {s : State} (b : Bool) (h : 1 ≤ s.spWord.length) (h' : s.spWord.length ≤ 16) :
    clockSample s { mark := false, bit := b } = { s with spWord := s.spWord ++ [b] } := by
  have h0 : s.spWord ≠ [] := List.ne_nil_of_length_pos h
  have h1 : s.spWord.length + 1 < 18 := by omega
  simp [clockSample, h0, h1]

/-- Bits that leave a word short of its eighteenth all join it (01 R9). -/
theorem clockSamples_bits (bits : List Bool) (s : State) (h : 1 ≤ s.spWord.length)
    (h' : s.spWord.length + bits.length ≤ 17) :
    (bits.map (SpPeriod.mk false)).foldl clockSample s =
      { s with spWord := s.spWord ++ bits } := by
  induction bits generalizing s with
  | nil => simp
  | cons b bits ih =>
    rw [List.length_cons] at h'
    rw [List.map_cons, List.foldl_cons, clockSample_bit b h (by omega),
      ih _ (by simp) (by simp only [List.length_append, List.length_singleton]; omega)]
    simp

/-- A whole word from its mark on arrives, whatever was in progress (01 R9). -/
theorem clockSamples_word (s : State) (first last : Bool) (bits : List Bool) (h : bits.length = 16) :
    (SpPeriod.mk true first :: bits.map (SpPeriod.mk false) ++ [SpPeriod.mk false last]).foldl clockSample
        s =
      sampleArrival (wordChannel (wordOf (first :: bits ++ [last])))
        (wordValue (wordOf (first :: bits ++ [last]))) { s with spWord := [] } := by
  rw [List.foldl_append, List.foldl_cons, List.foldl_nil, List.foldl_cons, clockSample_mark,
    clockSamples_bits bits _ (by simp) (by simp [h]), clockSample_last last (by simp [h])]
  rfl

/-- The periods of a word are the arrival of its sample on its channel (01 R9). -/
theorem clockSamples_wordPeriods (c : ChannelId) (v : Word16) (s : State) :
    (wordPeriods c v).foldl clockSample s = sampleArrival c v { s with spWord := [] } := by
  obtain ⟨first, bits, last, hlen, hp⟩ : ∃ first bits last, bits.length = 16 ∧ wordPeriods c v =
      SpPeriod.mk true first :: bits.map (SpPeriod.mk false) ++ [SpPeriod.mk false last] :=
    ⟨c.val.testBit 1, c.val.testBit 0 :: (List.range 15).map fun i => v.getLsbD (15 - i), v.getLsbD 0,
      rfl, rfl⟩
  have hbits : (wordPeriods c v).map SpPeriod.bit = first :: bits ++ [last] := by
    have hmap : (bits.map (SpPeriod.mk false)).map SpPeriod.bit = bits := by
      rw [List.map_map]
      exact List.map_id bits
    rw [hp, List.map_append, List.map_cons, hmap]
    rfl
  rw [hp, clockSamples_word s first last bits hlen, ← hbits, wordOf_wordPeriods, wordChannel_append,
    wordValue_append]

/-! ### Arrivals -/

/-- A sample without a ring to take it is discarded (01 R10). -/
theorem sampleArrival_untaken {s : State} {c : ChannelId} (v : Word16)
    (h : s.binding c = none ∨
      ∃ r g, s.binding c = some r ∧ s.ring r = some g ∧ Config.headLimit ≤ g.head) :
    sampleArrival c v s = s := by
  unfold sampleArrival
  rcases h with hb | ⟨r, g, hb, hr, hl⟩
  · rw [hb]
  · simp only [hb, hr, if_neg (Nat.not_lt.mpr hl)]

/-- A sample for a ring whose head is below its limit is taken (01 R12). -/
theorem sampleArrival_taken {s : State} {c : ChannelId} {r : RingId} {g : Ring} (v : Word16)
    (hb : s.binding c = some r) (hr : s.ring r = some g) (hl : g.head < Config.headLimit) :
    sampleArrival c v s = finish (writeSample r g v (evictOverwritten r g s)) := by
  simp only [sampleArrival, hb, hr, if_pos hl]

/-- Settles O15: a word's sample that no ring takes, and the periods one after another. -/
theorem untakenSampleChangesNothing : Obligations.UntakenSampleChangesNothing := by
  refine ⟨fun s c v h => ?untaken, fun s bit => ⟨?mark, fun h => ?ignored, fun h h' => ?joins⟩,
    fun s t l m h => ?split⟩
  case untaken =>
    have ha := sampleArrival_untaken (s := { s with spWord := [] }) v h
    exact congrArg Host.Outcome.next ((clockSamples_wordPeriods c v s).trans ha)
  case mark => exact congrArg Host.Outcome.next (clockSample_mark s bit)
  case ignored => exact congrArg Host.Outcome.next (clockSample_ignored bit h)
  case joins => exact congrArg Host.Outcome.next (clockSample_bit bit h h')
  case split =>
    cases h
    exact congrArg Host.Outcome.next List.foldl_append

theorem sampleMem_evictOverwritten (r : RingId) (g : Ring) (s : State) :
    (evictOverwritten r g s).sampleMem = s.sampleMem := by
  unfold evictOverwritten
  split
  · exact (evictAll_frame _ _ _).2
  · rfl

/-- Settles O16: the word's sample arrives, and its ring takes it. -/
theorem streamSampleEvictsWritesAndCounts : Obligations.StreamSampleEvictsWritesAndCounts := by
  intro s c v r g hb hr hl victims s0 s1 s2
  have htaken := sampleArrival_taken (s := s0) v hb hr hl
  have hs1 : evictOverwritten r g s0 = s1 := rfl
  have hmem : s1.sampleMem = s.sampleMem := sampleMem_evictOverwritten r g s0
  rw [hs1] at htaken
  have hwrite : writeSample r g v s1 = countdownStep r (g.head + 1) (min (g.fill + 1) g.capacity) s2 := by
    unfold writeSample
    rw [hmem]
    rfl
  exact congrArg Host.Outcome.next (((clockSamples_wordPeriods c v s).trans htaken).trans
    (congrArg finish hwrite))

end Sys2Proof.Machine
end

section
/-! SUPPORT. What a countdown step leaves, job by job, class by class and session by session (01 R13, 02 R34
to R37). -/

namespace Sys2Proof.Machine

/-! ### One job -/

/-- The record of a job once a countdown step with a head and fill has reached it (02 R34 to R37). -/
def Job.counted (r : RingId) (head fill : Nat) (b : Job) : Job :=
  if b.armed = true ∧ b.ring = r then
    if 1 < b.countdown then { b with countdown := b.countdown - 1 }
    else if fill < b.par.length then
      { b with countdown := b.par.stride, skipped := bump Config.counterLimit b.skipped }
    else if b.state = .armed then
      { b with
        countdown := b.par.stride, state := .ready, windowStart := head - b.par.length,
        triggerHead := head, extra := false, preempted := false }
    else if b.state = .defined then { b with countdown := b.par.stride }
    else { b with countdown := b.par.stride, missed := bump Config.counterLimit b.missed }
  else b

/-- The job fires at the countdown step and joins class `c` (02 R36). -/
def firesIn (r : RingId) (fill : Nat) (c : ClassId) (s : State) (j : JobId) : Bool :=
  firesAt r fill s j && (s.job j).any fun b => b.par.priority = c

/-- What a countdown step leaves once it has reached the jobs of a list, each once, in their order. -/
structure Counted (r : RingId) (head fill : Nat) (l : List JobId) (s t : State) : Prop where
  frame : t = { s with jobs := t.jobs, ready := t.ready, sessions := t.sessions }
  job : ∀ j, t.job j = if j ∈ l then (s.job j).map (Job.counted r head fill) else s.job j
  cls : ∀ c, t.cls c = s.cls c ++ l.filter (firesIn r fill c s)
  session : ∀ y, t.session y = { s.session y with
    pendingList := (l.filter (missesAt r fill y s)).foldl (fun m j => requestOverrun j m)
      (s.session y).pendingList }

theorem Job.dueAt_iff {r : RingId} {fill : Nat} {b : Job} : b.dueAt r fill = true ↔
    b.armed = true ∧ b.ring = r ∧ b.countdown ≤ 1 ∧ b.par.length ≤ fill := by
  simp [Job.dueAt, and_assoc]

/-- A trigger that meets an armed DEFINED job leaves it there (log 18). -/
theorem trigger_defined {j : JobId} {b : Job} {head fill : Nat} (s : State) (h : b.par.length ≤ fill)
    (hs : b.state = .defined) : trigger j b head fill s = s.putJob j (some b) := by
  simp [trigger, Nat.not_lt.mpr h, hs]

/-! The cases of a job's record. -/

theorem Job.counted_other {r : RingId} {head fill : Nat} {b : Job} (h : ¬ (b.armed = true ∧ b.ring = r)) :
    b.counted r head fill = b := if_neg h

theorem Job.counted_down {r : RingId} {head fill : Nat} {b : Job} (ha : b.armed = true) (hr : b.ring = r)
    (hc : 1 < b.countdown) : b.counted r head fill = { b with countdown := b.countdown - 1 } := by
  rw [counted, if_pos ⟨ha, hr⟩, if_pos hc]

theorem Job.counted_skipped {r : RingId} {head fill : Nat} {b : Job} (ha : b.armed = true)
    (hr : b.ring = r) (hc : b.countdown ≤ 1) (hl : fill < b.par.length) : b.counted r head fill =
      { b with countdown := b.par.stride, skipped := bump Config.counterLimit b.skipped } := by
  rw [counted, if_pos ⟨ha, hr⟩, if_neg (Nat.not_lt.mpr hc), if_pos hl]

theorem Job.counted_fires {r : RingId} {head fill : Nat} {b : Job} (hdue : b.dueAt r fill = true)
    (hs : b.state = .armed) : b.counted r head fill = { b with
      countdown := b.par.stride, state := .ready, windowStart := head - b.par.length,
      triggerHead := head, extra := false, preempted := false } := by
  obtain ⟨ha, hr, hc, hl⟩ := dueAt_iff.mp hdue
  rw [counted, if_pos ⟨ha, hr⟩, if_neg (Nat.not_lt.mpr hc), if_neg (Nat.not_lt.mpr hl), if_pos hs]

theorem Job.counted_defined {r : RingId} {head fill : Nat} {b : Job} (hdue : b.dueAt r fill = true)
    (hs : b.state = .defined) : b.counted r head fill = { b with countdown := b.par.stride } := by
  obtain ⟨ha, hr, hc, hl⟩ := dueAt_iff.mp hdue
  rw [counted, if_pos ⟨ha, hr⟩, if_neg (Nat.not_lt.mpr hc), if_neg (Nat.not_lt.mpr hl),
    if_neg (by simp [hs]), if_pos hs]

theorem Job.counted_missed {r : RingId} {head fill : Nat} {b : Job} (hdue : b.dueAt r fill = true)
    (hs : b.state ≠ .armed) (hd : b.state ≠ .defined) : b.counted r head fill =
      { b with countdown := b.par.stride, missed := bump Config.counterLimit b.missed } := by
  obtain ⟨ha, hr, hc, hl⟩ := dueAt_iff.mp hdue
  rw [counted, if_pos ⟨ha, hr⟩, if_neg (Nat.not_lt.mpr hc), if_neg (Nat.not_lt.mpr hl), if_neg hs,
    if_neg hd]

theorem firesAt_eq {r : RingId} {fill : Nat} {s : State} {j : JobId} {b : Job} (hb : s.job j = some b) :
    firesAt r fill s j = (b.dueAt r fill && decide (b.state = .armed)) := by simp [firesAt, hb]

theorem missesAt_eq {r : RingId} {fill : Nat} {s : State} {j : JobId} {b : Job} (hb : s.job j = some b)
    (y : Port) : missesAt r fill y s j = (b.dueAt r fill && decide (b.state ≠ .armed) &&
      decide (b.state ≠ .defined) && decide (b.owner = y)) := by simp [missesAt, hb]

/-- A step that only replaces the record of a job that neither fires nor misses. -/
theorem Counted.of_putJob {r : RingId} {head fill : Nat} {s : State} {j : JobId} {b : Job}
    (hb : s.job j = some b)
    (h : b.dueAt r fill = false ∨ b.state = .defined) :
    Counted r head fill [j] s (s.putJob j (some (b.counted r head fill))) := by
  have hf : firesAt r fill s j = false := by
    rcases h with h | h <;> simp [firesAt_eq hb, h]
  have hm : ∀ y, missesAt r fill y s j = false := fun y => by
    rcases h with h | h <;> simp [missesAt_eq hb, h]
  refine ⟨rfl, fun k => ?_, fun c => by simp [firesIn, hf], fun y => by simp [hm]⟩
  by_cases hk : k = j
  · subst hk; simp [hb]
  · simp [hk]

/-- An ARMED job fires (02 R36). -/
theorem Counted.of_fires {r : RingId} {head fill : Nat} {s : State} {j : JobId} {b : Job}
    (hb : s.job j = some b) (hdue : b.dueAt r fill = true) (hs : b.state = .armed) :
    Counted r head fill [j] s (fire j { b with countdown := b.par.stride } head false s) := by
  refine ⟨rfl, fun k => ?_, fun c => ?_, fun y => ?_⟩
  · by_cases hk : k = j
    · subst hk; simp [fire, joinTail, hb, Job.counted_fires hdue hs]
    · simp [fire, joinTail, hk]
  · by_cases hp : c = b.par.priority
    · subst hp; simp [fire, joinTail, firesIn, firesAt_eq hb, hdue, hs, hb]
    · simp [fire, joinTail, firesIn, hb, hp, Ne.symm hp]
  · simp [fire, joinTail, missesAt_eq hb, hs]

/-- A job that waits, runs or is HELD misses its trigger (02 R37). -/
theorem Counted.of_missed {r : RingId} {head fill : Nat} {s : State} {j : JobId} {b : Job}
    (hb : s.job j = some b) (hdue : b.dueAt r fill = true) (hs : b.state ≠ .armed)
    (hd : b.state ≠ .defined) :
    Counted r head fill [j] s ((s.putJob j (some { b with
      countdown := b.par.stride, missed := bump Config.counterLimit b.missed })).modSession b.owner
        fun z => { z with pendingList := requestOverrun j z.pendingList }) := by
  refine ⟨rfl, fun k => ?_, fun c => by simp [firesIn, firesAt_eq hb, hs], fun y => ?_⟩
  · by_cases hk : k = j
    · subst hk; simp [hb, Job.counted_missed hdue hs hd]
    · simp [hk]
  · by_cases hy : y = b.owner
    · subst hy; simp [missesAt_eq hb, hdue, hs, hd]
    · simp [missesAt_eq hb, hy, Ne.symm hy]

/-- The countdown step of one job (02 R34 to R37). -/
theorem counted_countdownJob (r : RingId) (head fill : Nat) (s : State) (j : JobId) :
    Counted r head fill [j] s (countdownJob r head fill s j) := by
  cases hb : s.job j with
  | none =>
    rw [countdownJob_skip (by simp [hb])]
    exact ⟨rfl, fun k => by by_cases hk : k = j <;> simp [hk, hb], fun c => by simp [firesIn, hb],
      fun y => by simp [missesAt, hb]⟩
  | some b =>
    have put := Counted.of_putJob (r := r) (head := head) (fill := fill) hb
    by_cases hr : b.armed = true ∧ b.ring = r
    case neg =>
      have hdue : b.dueAt r fill = false :=
        Bool.eq_false_iff.mpr fun h => hr ⟨(Job.dueAt_iff.mp h).1, (Job.dueAt_iff.mp h).2.1⟩
      have hsame : s.putJob j (some b) = s := by simp only [State.putJob, ← hb, State.job, Table.put_look]
      have hput := put (.inl hdue)
      rw [Job.counted_other hr, hsame] at hput
      rw [countdownJob_skip fun c hc hcr => ?_]
      · exact hput
      · rw [hb] at hc
        cases hc
        exact Bool.eq_false_iff.mpr fun ha => hr ⟨ha, hcr⟩
    obtain ⟨ha, hr⟩ := hr
    by_cases hc : 1 < b.countdown
    · -- the countdown goes on
      have hdue : b.dueAt r fill = false :=
        Bool.eq_false_iff.mpr fun h => absurd (Job.dueAt_iff.mp h).2.2.1 (Nat.not_le.mpr hc)
      rw [countdownJob_count hb ha hr hc, ← Job.counted_down (head := head) (fill := fill) ha hr hc]
      exact put (.inl hdue)
    have hc := Nat.le_of_not_lt hc
    rw [countdownJob_trigger hb ha hr hc]
    by_cases hl : fill < b.par.length
    · -- the trigger is skipped
      have hdue : b.dueAt r fill = false :=
        Bool.eq_false_iff.mpr fun h => absurd (Job.dueAt_iff.mp h).2.2.2 (Nat.not_le.mpr hl)
      have hput := put (.inl hdue)
      rw [Job.counted_skipped ha hr hc hl] at hput
      rw [trigger_skipped (b := { b with countdown := b.par.stride }) s hl]
      exact hput
    have hl := Nat.le_of_not_lt hl
    have hdue : b.dueAt r fill = true := Job.dueAt_iff.mpr ⟨ha, hr, hc, hl⟩
    by_cases hs : b.state = .armed
    · rw [trigger_fires (b := { b with countdown := b.par.stride }) s hl hs]
      exact .of_fires hb hdue hs
    by_cases hd : b.state = .defined
    · have hput := put (.inr hd)
      rw [Job.counted_defined hdue hd] at hput
      rw [trigger_defined (b := { b with countdown := b.par.stride }) s hl hd]
      exact hput
    · rw [trigger_missed (b := { b with countdown := b.par.stride }) s hl hs hd]
      exact .of_missed (b := b) hb hdue hs hd

/-! ### All jobs of a list -/

theorem firesIn_congr {r : RingId} {fill : Nat} {c : ClassId} {s t : State} {j : JobId}
    (h : t.job j = s.job j) : firesIn r fill c t j = firesIn r fill c s j := by
  simp only [firesIn, firesAt, h]

theorem missesAt_congr {r : RingId} {fill : Nat} {y : Port} {s t : State} {j : JobId}
    (h : t.job j = s.job j) : missesAt r fill y t j = missesAt r fill y s j := by
  simp only [missesAt, h]

/-- A countdown step that goes on behind the first job. -/
theorem Counted.cons {r : RingId} {head fill : Nat} {j : JobId} {l : List JobId} {s t u : State}
    (hj : j ∉ l) (h : Counted r head fill [j] s t) (h' : Counted r head fill l t u) :
    Counted r head fill (j :: l) s u := by
  have hother : ∀ k ∈ l, t.job k = s.job k := fun k hk => by
    have hne : k ≠ j := fun e => hj (e ▸ hk)
    rw [h.job, if_neg (by simpa using hne)]
  have hfires : ∀ c, l.filter (firesIn r fill c t) = l.filter (firesIn r fill c s) := fun c =>
    List.filter_congr fun k hk => firesIn_congr (hother k hk)
  have hmisses : ∀ y, l.filter (missesAt r fill y t) = l.filter (missesAt r fill y s) := fun y =>
    List.filter_congr fun k hk => missesAt_congr (hother k hk)
  refine ⟨?_, fun k => ?_, fun c => ?_, fun y => ?_⟩
  · rw [h'.frame, h.frame]
  · by_cases hk : k ∈ l
    · simp [h'.job, hk, hother k hk]
    · simp [h'.job, h.job, hk]
  · rw [h'.cls, h.cls, hfires, List.append_assoc, ← List.filter_append, List.singleton_append]
  · rw [h'.session, h.session, hmisses, ← List.foldl_append, ← List.filter_append, List.singleton_append]

theorem counted_foldl (r : RingId) (head fill : Nat) (l : List JobId) (hl : l.Nodup) (s : State) :
    Counted r head fill l s (l.foldl (countdownJob r head fill) s) := by
  induction l generalizing s with
  | nil => exact ⟨rfl, fun _ => by simp, fun _ => by simp, fun _ => by simp⟩
  | cons j l ih =>
    obtain ⟨hj, hl⟩ := List.nodup_cons.mp hl
    exact (counted_countdownJob r head fill s j).cons hj (ih hl _)

/-- What the countdown step of a ring leaves (01 R13). -/
theorem counted_countdownStep (r : RingId) (head fill : Nat) (s : State) :
    Counted r head fill allJobs s (countdownStep r head fill s) :=
  counted_foldl r head fill allJobs (List.nodup_finRange 32) s

/-! ### The statement -/

theorem bump_eq_min {limit n : Nat} (h : n ≤ limit) : bump limit n = min (n + 1) limit := by
  unfold bump
  split <;> omega

theorem any_false_of_forall {l : List Entry} {p : Entry → Bool} (h : ∀ e ∈ l, p e = false) :
    l.any p = false := by simpa using h

/-- Settles O14: the countdown step reaches every job once, and each step is that of `countdownJob`. -/
theorem countdownStepTriggersTheArmedJobs : Obligations.CountdownStepTriggersTheArmedJobs := by
  refine ⟨fun j l h => requestOverrun_new (any_false_of_forall h), fun j n pre post h hn => ?_,
    fun s r head fill => ?_⟩
  · rw [requestOverrun_fold (any_false_of_forall h), bump_eq_min hn]
  have h := counted_countdownStep r head fill s
  have hjob : ∀ j b, s.job j = some b →
      (countdownStep r head fill s).job j = some (b.counted r head fill) := fun j b hb => by
    rw [h.job, if_pos (mem_allJobs j), hb]
    rfl
  refine ⟨_, _, _, h.frame, fun j hj => ?none, fun j b hb => ?some, fun c => ?classes, h.session⟩
  case none =>
    rw [State.look_jobs, h.job, if_pos (mem_allJobs j), hj]
    rfl
  case classes =>
    rw [State.look_ready, h.cls]
    congr 2
    funext j
    simp only [firesIn]
    cases s.job j <;> rfl
  case some =>
    rw [State.look_jobs, hjob j b hb]
    refine ⟨fun hskip => ?_, fun ha hr hc => by rw [Job.counted_down ha hr hc],
      fun ha hr hc hl => by rw [Job.counted_skipped ha hr hc hl],
      fun hdue hs => by rw [Job.counted_fires hdue hs],
      fun hdue hs hd => by rw [Job.counted_missed hdue hs hd]⟩
    rw [Job.counted_other fun ⟨ha, hr⟩ => hskip.elim (by simp [ha]) (· hr)]

end Sys2Proof.Machine
end

section
/-! SUPPORT. RING_WRITE: the samples one after another, each with its test and its countdown step, and how
many find room when no job of the ring is armed (01 R14 to R16). -/

namespace Sys2Proof.Machine

/-! ### The test of one sample -/

/-- The ring takes no further sample: its head is at the limit, or the next index lies at the pin plus the
capacity (01 R15). -/
def RingFull (r : RingId) (g : Ring) (s : State) : Prop :=
  Config.headLimit ≤ g.head ∨ ∃ p, pin r s = some p ∧ p + g.capacity ≤ g.head

theorem mayWrite_iff_not_full {r : RingId} {g : Ring} {s : State} :
    mayWrite r g s = true ↔ ¬ RingFull r g s := by
  rw [mayWrite_iff, RingFull]
  constructor
  · rintro ⟨hl, hp⟩ (h | ⟨p, hpin, h⟩)
    · omega
    · have := hp p hpin (by omega)
      omega
  · intro h
    refine ⟨Nat.lt_of_not_le fun hl => h (.inl hl), fun p hpin hc => ?_⟩
    have : ¬ p + g.capacity ≤ g.head := fun hp => h (.inr ⟨p, hpin, hp⟩)
    omega

/-- A written sample leaves its ring with one sample more (01 R2). -/
theorem ring_writeSample (r : RingId) (g : Ring) (v : Word16) (s : State) :
    (writeSample r g v s).ring r = some g.taken := by
  have h := (counted_countdownStep r g.taken.head g.taken.fill
    ({ s with sampleMem := s.sampleMem.write (g.base + g.head % g.capacity) v }.putRing r
      (some g.taken))).frame
  rw [writeSample, h]
  simp [State.look_rings]

/-! ### One after another -/

/-- The samples of a RING_WRITE as a chain of states: each sample taken is tested, stored and followed by its
countdown step, up to the first that may not be written (01 R15, R16). -/
theorem writeSamples_chain (r : RingId) (ws : List Word16) (n : Nat) (s : State) (g : Ring)
    (hr : s.ring r = some g) :
    ∃ (k : Nat) (after : Nat → State), k ≤ ws.length ∧ after 0 = s ∧
      writeSamples r ws n s = (n + k, after k) ∧
      ∀ i, i ≤ k → ∃ gi, (after i).ring r = some gi ∧
        (∀ v, i < k → ws[i]? = some v →
          ¬ RingFull r gi (after i) ∧ after (i + 1) = writeSample r gi v (after i)) ∧
        (i = k → k < ws.length → RingFull r gi (after i)) := by
  induction ws generalizing n s g with
  | nil =>
    refine ⟨0, fun _ => s, le_rfl, rfl, rfl, fun i _ => ⟨g, hr, fun v hi _ => ?_, fun _ hk => ?_⟩⟩
    · omega
    · simp at hk
  | cons v ws ih =>
    by_cases hm : mayWrite r g s = true
    · -- the first sample is taken
      obtain ⟨k, after, hk, h0, hw, hall⟩ :=
        ih (n + 1) (writeSample r g v s) g.taken (ring_writeSample r g v s)
      refine ⟨k + 1, fun i => i.casesOn s after, ?_, rfl, ?_, fun i hi => ?_⟩
      · simpa using hk
      · simp only [writeSamples, hr, hm, if_true, hw]
        rw [Nat.add_right_comm, Nat.add_assoc n k 1]
      · cases i with
        | zero =>
          refine ⟨g, hr, fun w _ hw' => ?_, fun h => ?_⟩
          · simp only [List.getElem?_cons_zero, Option.some.injEq] at hw'
            subst hw'
            exact ⟨mayWrite_iff_not_full.mp hm, h0⟩
          · omega
        | succ i =>
          obtain ⟨gi, hgi, hstep, hfull⟩ := hall i (by omega)
          refine ⟨gi, hgi, fun w hik hw' => hstep w (by omega) (by simpa using hw'), fun hik hlen =>
            hfull (by omega) (by simpa using hlen)⟩
    · -- the first sample may not be written
      refine ⟨0, fun _ => s, Nat.zero_le _, rfl, ?_, fun i hi => ⟨g, hr, fun w hi' _ => ?_, fun _ _ => ?_⟩⟩
      · simp only [writeSamples, hr, hm, Bool.false_eq_true, if_false]
        rfl
      · omega
      · by_contra hf
        exact hm (mayWrite_iff_not_full.mpr hf)

/-! ### A ring without armed jobs -/

/-- A countdown step of a ring without armed jobs changes nothing (01 R13). -/
theorem countdownStep_unarmed {r : RingId} {head fill : Nat} {s : State}
    (h : ∀ j b, s.job j = some b → b.ring = r → b.armed = false) : countdownStep r head fill s = s :=
  List.foldl_fixed' (fun j => countdownJob_skip (h j)) allJobs

/-- How many samples a ring has room for (01 R15). -/
def roomIn (r : RingId) (g : Ring) (s : State) : Nat :=
  match pin r s with
  | some p => min (p + g.capacity - g.head) (Config.headLimit - g.head)
  | none => Config.headLimit - g.head

theorem ringFull_iff_roomIn {r : RingId} {g : Ring} {s : State} :
    RingFull r g s ↔ roomIn r g s = 0 := by
  unfold RingFull roomIn
  cases pin r s with
  | none => simp; omega
  | some p => simp; omega

/-- A ring after `k` more samples (01 R2). -/
def Ring.takenMore (g : Ring) (k : Nat) : Ring :=
  { g with head := g.head + k, fill := min (g.fill + k) g.capacity }

/-- Sample memory after a run of samples from an index on (01 R3). -/
def storeFrom (g : Ring) (head : Nat) (ws : List Word16) (first : Nat) (m : Mem) : Mem :=
  (ws.zipIdx first).foldl (fun m (v, i) => m.write (g.base + (head + i) % g.capacity) v) m

theorem storeFrom_cons (g : Ring) (head first : Nat) (v : Word16) (ws : List Word16) (m : Mem) :
    storeFrom g head (v :: ws) first m =
      storeFrom g head ws (first + 1) (m.write (g.base + (head + first) % g.capacity) v) := rfl

theorem Ring.takenMore_zero {g : Ring} (h : g.fill ≤ g.capacity) : g.takenMore 0 = g := by
  simp [takenMore, Nat.min_eq_left h]

theorem Ring.takenMore_taken (g : Ring) (k : Nat) : g.taken.takenMore k = g.takenMore (k + 1) := by
  simp only [takenMore, taken, Ring.mk.injEq, true_and, and_true]
  omega

/-- A store behind a change of a ring's record that a further change replaces. -/
theorem store_putRing_putRing (s : State) (r : RingId) (v w : Option Ring) (m : Mem) :
    { s.putRing r v with sampleMem := m }.putRing r w = { s with sampleMem := m }.putRing r w := by
  simp [State.putRing]

theorem putRing_same {s : State} {r : RingId} {g : Ring} (h : s.ring r = some g) :
    s.putRing r (some g) = s := by simp only [State.putRing, ← h, State.ring, Table.put_look]

/-- To a ring without armed jobs the samples there is room for are stored in a run (01 R15). -/
theorem writeSamples_unarmed (r : RingId) (ws : List Word16) (n head first : Nat) (s : State) (g : Ring)
    (hr : s.ring r = some g) (hf : g.fill ≤ g.capacity) (hhead : g.head = head + first)
    (ha : ∀ j b, s.job j = some b → b.ring = r → b.armed = false) :
    writeSamples r ws n s = (n + min ws.length (roomIn r g s),
      { s with
        sampleMem := storeFrom g head (ws.take (min ws.length (roomIn r g s))) first s.sampleMem }.putRing r
        (some (g.takenMore (min ws.length (roomIn r g s))))) := by
  induction ws generalizing n first s g with
  | nil => simp [writeSamples, Ring.takenMore_zero hf, storeFrom, putRing_same hr]
  | cons v ws ih =>
    by_cases hroom : roomIn r g s = 0
    · have hm : ¬ mayWrite r g s = true := fun h =>
        mayWrite_iff_not_full.mp h (ringFull_iff_roomIn.mpr hroom)
      simp [writeSamples, hr, hm, hroom, Ring.takenMore_zero hf, storeFrom, putRing_same hr]
    · have hm : mayWrite r g s = true :=
        mayWrite_iff_not_full.mpr fun h => hroom (ringFull_iff_roomIn.mp h)
      have hw : writeSample r g v s =
          { s with
            sampleMem := s.sampleMem.write (g.base + (head + first) % g.capacity) v }.putRing r
              (some g.taken) := by
        rw [writeSample, hhead]
        exact countdownStep_unarmed ha
      have hroom' : roomIn r g.taken (writeSample r g v s) = roomIn r g s - 1 := by
        have hp : pin r (writeSample r g v s) = pin r s := by rw [hw]; rfl
        simp only [roomIn, hp, Ring.taken]
        cases pin r s <;> simp only <;> omega
      have hk : min (v :: ws).length (roomIn r g s) = min ws.length (roomIn r g s - 1) + 1 := by
        rw [List.length_cons]; omega
      have h := ih (n + 1) (first + 1) (writeSample r g v s) g.taken (ring_writeSample r g v s)
        (by simp only [Ring.taken]; omega) (by simp only [Ring.taken]; omega)
        (by rw [hw]; exact ha)
      rw [hroom', hw] at h
      rw [writeSamples, hr]
      simp only [hm, if_true]
      rw [hw, h, hk, List.take_succ_cons, storeFrom_cons, Ring.takenMore_taken]
      refine Prod.ext (by simp only; omega) ?_
      exact store_putRing_putRing _ _ _ _ _

/-! ### RING_WRITE at the ring unit -/

theorem toNat_ofNat_length {ws : List Word16} (h : ws.length < 256) :
    (BitVec.ofNat 8 ws.length).toNat = ws.length := by
  rw [BitVec.toNat_ofNat]
  exact Nat.mod_eq_of_lt h

theorem headOf_takeCommand (x : Port) (l : List Command) (r : RingId) (s : State) :
    headOf r (takeCommand x l s) = headOf r s := rfl

/-- A RING_WRITE that passes its checks stores its samples (01 R14, R15). -/
theorem ringWrite_accepted {x : Port} {r : RingId} {g : Ring} {ws : List Word16} {rest : List Command}
    {s : State} (hr : s.ring r = some g) (ho : g.orphaned = false) (hx : g.owner = some x)
    (hsrc : g.source = .host) (h1 : 1 ≤ ws.length) (h120 : ws.length ≤ 120) :
    ringWrite x (idByte r :: BitVec.ofNat 8 ws.length :: bytes16 ws) (takeCommand x rest s) =
      some { state := takeCommand x rest (writeSamples r ws 0 s).2
             status := if (writeSamples r ws 0 s).1 = ws.length then .ok else .ringFull
             data := idByte r :: BitVec.ofNat 8 (writeSamples r ws 0 s).1 ::
               leBytes 6 (headOf r (writeSamples r ws 0 s).2) } := by
  have hlen := toNat_ofNat_length (ws := ws) (by omega)
  have h0 : ¬ ws = [] := by rintro rfl; simp at h1
  have hmax : ¬ 120 < ws.length := by omega
  simp [ringWrite, hlen, hr, not_foreign ho hx, hsrc, h0, hmax, writeSamples_takeCommand,
    headOf_takeCommand]

/-- The execution of a RING_WRITE that passes its checks (08 R145). -/
theorem exec_ringWrite_accepted {x : Port} {q : Byte} {r : RingId} {g : Ring} {ws : List Word16}
    {rest : List Command} {s : State}
    (h : NextIs x q (0x23 :: idByte r :: BitVec.ofNat 8 ws.length :: bytes16 ws) rest s)
    (hr : s.ring r = some g) (ho : g.orphaned = false) (hx : g.owner = some x) (hsrc : g.source = .host)
    (h1 : 1 ≤ ws.length) (h120 : ws.length ≤ 120) {k : Nat} {t : State} {gt : Ring}
    (hw : writeSamples r ws 0 s = (k, t)) (ht : t.ring r = some gt) :
    exec (.ringWrite x) s = .next (answered x q (if k = ws.length then .ok else .ringFull) 0x23
      (idByte r :: BitVec.ofNat 8 k :: leBytes 6 gt.head) rest t) := by
  have ha := ringWrite_accepted (rest := rest) hr ho hx hsrc h1 h120
  rw [hw] at ha
  simp only [headOf_eq ht] at ha
  exact congrArg Host.Outcome.next (runCommand_answered h ha)

end Sys2Proof.Machine
end

section
/-! SUPPORT. The four parts of RING_WRITE's statement, each from the run of its samples (01 R14 to R16). -/

namespace Sys2Proof.Machine

/-- A ring whose first sample may not be written takes none (01 R15). -/
theorem writeSamples_full {r : RingId} {g : Ring} {ws : List Word16} {s : State}
    (hr : s.ring r = some g) (hf : RingFull r g s) : writeSamples r ws 0 s = (0, s) := by
  have hm : ¬ mayWrite r g s = true := fun h => mayWrite_iff_not_full.mp h hf
  cases ws with
  | nil => rfl
  | cons v ws => simp [writeSamples, hr, hm]

/-- The refusals of a RING_WRITE come before any sample (01 R14). -/
theorem ringWrite_refusals (x : Port) (id : Byte) (ws : List Word16) (s : State) (hlen : ws.length ≤ 122) :
    let refuses (st : Status) := ringWrite x (id :: BitVec.ofNat 8 ws.length :: bytes16 ws) s =
      some { state := s, status := st, data := id :: zeros 7 }
    (8 ≤ id.toNat → refuses .badArg) ∧
    (∀ r, id = idByte (n := 8) r →
      (s.ring r = none → refuses .notFound) ∧
      (∀ g, s.ring r = some g →
        (g.orphaned = true ∨ g.owner ≠ some x → refuses .notOwner) ∧
        (g.orphaned = false → g.owner = some x →
          (g.source ≠ .host → refuses .wrongState) ∧
          (g.source = .host → ws.length = 0 ∨ 120 < ws.length → refuses .badArg)))) := by
  have hl := toNat_ofNat_length (ws := ws) (by omega)
  refine ⟨fun hid => by simp [ringWrite, hl, ringId?_eq_none hid], ?_⟩
  rintro r rfl
  refine ⟨fun hr => by simp [ringWrite, hl, hr], fun g hr => ⟨fun hf => ?_, fun ho hx =>
    ⟨fun hs => ?_, fun hs hc => ?_⟩⟩⟩
  · simp [ringWrite, hl, hr, foreign_iff.mpr hf]
  · simp [ringWrite, hl, hr, not_foreign ho hx, hs]
  · have hc' : ws.length = 0 ∨ Config.maxItems < ws.length := hc
    simp only [ringWrite, words16_bytes16, hl, ringId?_idByte, hr, not_foreign ho hx, hs, hc', ne_eq,
      not_true_eq_false, Bool.false_eq_true, if_false, if_true]

/-- Settles O17: a RING_WRITE is the run of its samples (`exec_ringWrite_accepted`), a chain of states
(`writeSamples_chain`), on a ring without armed jobs one store of the samples it has room for
(`writeSamples_unarmed`), and empty on a full ring (`writeSamples_full`). -/
theorem ringWriteStoresOrStopsAtThePin : Obligations.RingWriteStoresOrStopsAtThePin := by
  refine ⟨?unarmed, ?single, ?chain, ?refused⟩
  case unarmed =>
    intro s x q r g ws rest h hr ho hx hsrc hf h1 h120 ha room k
    have hw := writeSamples_unarmed r ws 0 g.head 0 s g hr hf rfl ha
    have hroom : roomIn r g s = room := rfl
    rw [Nat.zero_add, hroom] at hw
    have hexec := exec_ringWrite_accepted (gt := g.takenMore (min ws.length room)) h hr ho hx hsrc h1 h120
      hw (by simp)
    exact hexec
  case single =>
    intro s x q r g v rest h hr ho hx hsrc hl hp
    have hfull : ¬ RingFull r g s := by
      rintro (hhead | ⟨p, hpin, hc⟩)
      · exact Nat.not_le.mpr hl hhead
      · exact Nat.not_le.mpr (hp p hpin) hc
    have hw : writeSamples r [v] 0 s = (1, writeSample r g v s) := by
      simp [writeSamples, hr, mayWrite_iff_not_full.mpr hfull]
    have hbytes : bytes16 [v] = leBytes 2 v.toNat := List.append_nil _
    rw [← hbytes] at h
    have hexec := exec_ringWrite_accepted (ws := [v]) h hr ho hx hsrc le_rfl (by simp) hw
      (ring_writeSample r g v s)
    rw [if_pos (List.length_singleton).symm] at hexec
    exact hexec
  case chain =>
    intro s x q r g ws rest h hr ho hx hsrc h1 h120
    obtain ⟨k, after, hk, h0, hw, hall⟩ := writeSamples_chain r ws 0 s g hr
    rw [Nat.zero_add] at hw
    refine ⟨k, after, hk, h0, fun i hi => ?_⟩
    obtain ⟨gi, hgi, hstep, hfull⟩ := hall i hi
    refine ⟨gi, hgi, hstep, hfull, fun hik => ?_⟩
    subst hik
    exact exec_ringWrite_accepted h hr ho hx hsrc h1 h120 hw hgi
  case refused =>
    intro s x q id ws rest h hlen refused
    obtain ⟨hid, hchecks⟩ := ringWrite_refusals x id ws (takeCommand x rest s) hlen
    have refuse : ∀ st, ringWrite x (id :: BitVec.ofNat 8 ws.length :: bytes16 ws) (takeCommand x rest s) =
        some { state := takeCommand x rest s, status := st, data := id :: zeros 7 } → refused st :=
      fun st ha => congrArg Host.Outcome.next (runCommand_answered h ha)
    refine ⟨fun h8 => refuse _ (hid h8), ?_⟩
    rintro r rfl
    obtain ⟨hnone, hsome⟩ := hchecks r rfl
    refine ⟨fun hr => refuse _ (hnone hr), fun g hr => ?_⟩
    obtain ⟨hforeign, hown⟩ := hsome g hr
    refine ⟨fun hf => refuse _ (hforeign hf), fun ho hx => ?_⟩
    obtain ⟨hsource, hcount⟩ := hown ho hx
    refine ⟨fun hs => refuse _ (hsource hs), fun hs => ⟨fun hc => refuse _ (hcount hs hc), ?_⟩⟩
    intro h1 h120 hstop
    have hfull : RingFull r g s :=
      hstop.imp (fun hhead => Nat.le_of_eq hhead.symm) fun ⟨p, hpin, hc, hp⟩ =>
        ⟨p, hpin, Nat.add_le_of_le_sub hc hp⟩
    have hne : ¬ 0 = ws.length := by omega
    have hexec := exec_ringWrite_accepted h hr ho hx hs h1 h120 (writeSamples_full hr hfull) hr
    rwa [if_neg hne] at hexec

end Sys2Proof.Machine
end

section
/-! SUPPORT. The law of the armed flag and the countdown, record by record, and the shared operations that keep
it (02 R26, R32, R41). -/

namespace Sys2Proof.Machine

/-! ### The law of one record -/

/-- What the law asks of a job's record (02 R26, Table 2-2, R32). -/
structure Job.ArmedSound (b : Job) : Prop where
  defined : b.state = .defined → b.armed = false
  armed : b.state = .armed → b.armed = true
  counting : b.armed = true → 0 < b.countdown ∧ 0 < b.par.stride
  still : b.armed = false → b.countdown = 0

theorem armedLaw_iff (s : State) : ArmedLaw s ↔ ∀ j b, s.job j = some b → b.ArmedSound :=
  ⟨fun h j b hb => let ⟨h1, h2, h3, h4⟩ := h j b hb; ⟨h1, h2, h3, h4⟩,
    fun h j b hb => ⟨(h j b hb).defined, (h j b hb).armed, (h j b hb).counting, (h j b hb).still⟩⟩

/-- A change of a job's record that leaves flag, countdown and stride, and brings the job to its return state,
to a state that says nothing of the flag, or nowhere. -/
structure ArmedKept (b c : Job) : Prop where
  armed : c.armed = b.armed
  countdown : c.countdown = b.countdown
  stride : c.par.stride = b.par.stride
  state : c.state = b.state ∨ c.state = b.returnState ∨ (c.state ≠ .defined ∧ c.state ≠ .armed)

theorem Job.ArmedSound.kept {b c : Job} (h : b.ArmedSound) (hk : ArmedKept b c) : c.ArmedSound := by
  obtain ⟨ha, hn, hp, hs⟩ := hk
  refine ⟨fun e => ?_, fun e => ?_, fun e => ?_, fun e => ?_⟩
  · rw [e] at hs
    rcases hs with hs | hs | hs
    · rw [ha]; exact h.defined hs.symm
    · rw [ha, Bool.eq_false_iff]
      intro hb
      simp [Job.returnState, hb] at hs
    · exact absurd rfl hs.1
  · rw [e] at hs
    rcases hs with hs | hs | hs
    · rw [ha]; exact h.armed hs.symm
    · rw [ha]
      by_contra hb
      simp [Job.returnState, hb] at hs
    · exact absurd rfl hs.2
  · rw [hn, hp]; exact h.counting (ha ▸ e)
  · rw [hn]; exact h.still (ha ▸ e)

/-! ### What keeps the law -/

/-- If the first state meets the law, so does the second. -/
def KeepsArmed (s t : State) : Prop := ArmedLaw s → ArmedLaw t

theorem KeepsArmed.refl (s : State) : KeepsArmed s s := id

theorem KeepsArmed.trans {s t u : State} (h : KeepsArmed s t) (h' : KeepsArmed t u) : KeepsArmed s u :=
  h' ∘ h

/-- The law sees the job table alone. -/
theorem KeepsArmed.of_jobs {s t : State} (h : t.jobs = s.jobs) : KeepsArmed s t := fun hs j b hb =>
  hs j b ((congrArg (Table.look · j) h).symm.trans hb)

/-- One job's record is replaced, by one that meets the law. -/
theorem KeepsArmed.putSound {s : State} {j : JobId} {v : Option Job}
    (hv : ArmedLaw s → ∀ c, v = some c → c.ArmedSound) : KeepsArmed s (s.putJob j v) := fun hs => by
  refine (armedLaw_iff _).mpr fun k c hk => ?_
  rw [State.job_putJob] at hk
  split at hk
  · exact hv hs c hk
  · exact (armedLaw_iff s).mp hs k c hk

theorem KeepsArmed.putJob {s : State} {j : JobId} {b c : Job} (hb : s.job j = some b)
    (hk : ArmedKept b c) : KeepsArmed s (s.putJob j (some c)) :=
  .putSound fun hs _ hd => Option.some.inj hd ▸ ((armedLaw_iff s).mp hs j b hb).kept hk

theorem KeepsArmed.putSession (s : State) (x : Port) (z : Session) : KeepsArmed s (s.putSession x z) :=
  .of_jobs rfl

theorem KeepsArmed.foldl {α : Type} {f : State → α → State} (h : ∀ s a, KeepsArmed s (f s a))
    (l : List α) (s : State) : KeepsArmed s (l.foldl f s) := by
  induction l generalizing s with
  | nil => exact .refl s
  | cons a l ih => exact (h s a).trans (ih _)

/-! ### The result unit (04) -/

theorem keepsArmed_moveHeld (x : Port) (j : JobId) (rest : List JobId) (s : State) :
    KeepsArmed s (moveHeld x j rest s) := by
  unfold moveHeld
  cases hj : s.job j with
  | none => exact .of_jobs rfl
  | some b =>
    cases hs : b.state with
    | held r =>
      simp only [hs]
      have h1 : KeepsArmed s
          (s.modSession x fun z => { z with heldOrder := rest, results := z.results ++ [r] }) :=
        .of_jobs rfl
      exact h1.trans (.putJob (b := b) hj ⟨rfl, rfl, rfl, .inr (.inl rfl)⟩)
    | _ => simp only [hs]; exact .of_jobs rfl

theorem keepsArmed_heldMove (x : Port) (s : State) : KeepsArmed s (heldMove x s) := by
  unfold heldMove
  generalize (s.session x).heldOrder = l
  induction l generalizing s with
  | nil => exact .refl s
  | cons j rest ih =>
    unfold heldMoves
    split
    · exact (keepsArmed_moveHeld x j rest s).trans (ih _)
    · exact .refl s

theorem jobs_resultsCheck (x : Port) (before : List Record) (s : State) :
    (resultsCheck x before s).jobs = s.jobs := by
  unfold resultsCheck
  simp only
  split
  · rfl
  · split <;> rfl

/-- Records leave a result queue, and held ones may move in (04 R78, R79, R81). -/
theorem keepsArmed_removeResults (x : Port) (l before : List Record) (p : Prop) [Decidable p] (s : State) :
    KeepsArmed s (resultsCheck x before
      (if p then heldMove x (s.modSession x fun z => { z with results := l })
        else s.modSession x fun z => { z with results := l })) := by
  have h1 : KeepsArmed s (s.modSession x fun z => { z with results := l }) := .of_jobs rfl
  refine .trans ?_ (.of_jobs (jobs_resultsCheck _ _ _))
  split
  · exact h1.trans (keepsArmed_heldMove _ _)
  · exact h1

theorem keepsArmed_purge (x : Port) (j : JobId) (s : State) : KeepsArmed s (purge x j s) :=
  keepsArmed_removeResults x _ _ _ s

theorem keepsArmed_removeOldest (x : Port) (k : Nat) (s : State) : KeepsArmed s (removeOldest x k s) :=
  keepsArmed_removeResults x _ _ _ s

/-- A result enters the unit, and its job goes to its return state or is HELD (04 R76). -/
theorem keepsArmed_postResult {j : JobId} {b c : Job} {s : State} (r : Record) (hb : s.job j = some b)
    (hk : ArmedKept b c) : KeepsArmed s (postResult j c r s) := by
  have hret : c.returnState = b.returnState := by simp only [Job.returnState, hk.armed]
  unfold postResult
  simp only
  split
  · have h1 : KeepsArmed s (s.putJob j (some { c with state := c.returnState })) :=
      .putJob hb ⟨hk.armed, hk.countdown, hk.stride, .inr (.inl hret)⟩
    exact h1.trans (.of_jobs (jobs_resultsCheck _ _ _))
  · have h1 : KeepsArmed s (s.putJob j (some { c with state := .held r })) :=
      .putJob hb ⟨hk.armed, hk.countdown, hk.stride, .inr (.inr ⟨nofun, nofun⟩)⟩
    exact h1.trans (.of_jobs rfl)

/-! ### The run scheduler (03) -/

theorem jobs_abandon (j : JobId) (b : Job) (s : State) : (abandon j b s).jobs = s.jobs := by
  unfold abandon
  cases b.state <;> rfl

theorem job_abandon (j k : JobId) (b : Job) (s : State) : (abandon j b s).job k = s.job k :=
  congrArg (Table.look · k) (jobs_abandon j b s)

theorem keepsArmed_startJob (c : ClassId) (j : JobId) (s : State) : KeepsArmed s (startJob c j s) := by
  unfold startJob
  cases hj : s.job j with
  | none => exact .refl s
  | some b =>
    simp only
    cases runOf j b with
    | none => exact .refl s
    | some run =>
      have h1 : KeepsArmed s (s.putJob j (some { b with state := .running })) :=
        .putJob hj ⟨rfl, rfl, rfl, .inr (.inr ⟨nofun, nofun⟩)⟩
      exact h1.trans (.of_jobs rfl)

theorem keepsArmed_startStep (s : State) : KeepsArmed s (startStep s) := by
  unfold startStep
  cases s.psu with
  | some run => exact .refl s
  | none =>
    cases nextToRun s with
    | none => exact .refl s
    | some t => exact keepsArmed_startJob _ _ _

theorem keepsArmed_segmentEnd {b : Job} {run : Run} {s : State} (hb : s.job run.job = some b) :
    KeepsArmed s (segmentEnd b run s) := by
  have hjob := (addProducts_next s b Config.segment run).2
  unfold segmentEnd
  generalize addProducts s b Config.segment run = run' at hjob ⊢
  simp only
  split
  · have h1 : KeepsArmed s (s.putJob run'.job (some (b.parked run'))) :=
      .putJob (b := b) (hjob ▸ hb) ⟨rfl, rfl, rfl, .inr (.inr ⟨nofun, nofun⟩)⟩
    exact h1.trans (.of_jobs rfl)
  · exact .of_jobs rfl

theorem keepsArmed_runEnd {b : Job} {run : Run} {s : State} (hb : s.job run.job = some b) :
    KeepsArmed s (runEnd b run s) := by
  unfold runEnd
  have h1 : ∀ l : Session → List Entry, KeepsArmed s
      ({ s with psu := none }.modSession b.owner fun z => { z with pendingList := l z }) :=
    fun l => .of_jobs rfl
  exact (h1 _).trans (keepsArmed_postResult (b := b) _ hb ⟨rfl, rfl, rfl, .inl rfl⟩)

/-! ### Evictions (01 R11, 02 R39) -/

theorem keepsArmed_evict (r : RingId) (s : State) (j : JobId) : KeepsArmed s (evict r s j) := by
  unfold evict
  cases hj : s.job j with
  | none => exact .refl s
  | some b =>
    have h1 : KeepsArmed s (abandon j b s) := .of_jobs (jobs_abandon j b s)
    have h2 : KeepsArmed (abandon j b s) ((abandon j b s).putJob j (some { b with
        state := b.returnState, lost := bump Config.counterLimit b.lost })) :=
      .putJob (b := b) ((job_abandon j j b s).trans hj) ⟨rfl, rfl, rfl, .inr (.inl rfl)⟩
    exact (h1.trans h2).trans (.of_jobs rfl)

theorem keepsArmed_evictAll (r : RingId) (js : List JobId) (s : State) : KeepsArmed s (evictAll r js s) :=
  .foldl (keepsArmed_evict r) js s

/-! ### Triggers, countdowns and samples (01 R12 to R16, 02 R34 to R37) -/

/-- An armed job that a countdown step reaches keeps a countdown above 0 (02 R34). -/
theorem Job.ArmedSound.count {b : Job} {n : Nat} (h : b.ArmedSound) (ha : b.armed = true) (hn : 0 < n) :
    Job.ArmedSound { b with countdown := n } :=
  ⟨h.defined, h.armed, fun _ => ⟨hn, (h.counting ha).2⟩, fun hf => by rw [ha] at hf; cases hf⟩

/-- A trigger changes one job's record, and keeps what the law asks of it (02 R35 to R37). -/
theorem keepsArmed_trigger {j : JobId} {b : Job} {head fill : Nat} {s : State}
    (hb : ArmedLaw s → b.ArmedSound) : KeepsArmed s (trigger j b head fill s) := by
  have put : ∀ {c : Job}, ArmedKept b c → KeepsArmed s (s.putJob j (some c)) := fun hk =>
    .putSound fun hs _ hd => Option.some.inj hd ▸ (hb hs).kept hk
  unfold trigger
  split
  · exact put ⟨rfl, rfl, rfl, .inl rfl⟩
  · cases hst : b.state with
    | armed =>
      have h1 := put (c := { b with
        state := .ready, windowStart := head - b.par.length, triggerHead := head, extra := false,
        preempted := false }) ⟨rfl, rfl, rfl, .inr (.inr ⟨nofun, nofun⟩)⟩
      exact h1.trans (.of_jobs rfl)
    | defined => exact put ⟨rfl, rfl, rfl, .inl rfl⟩
    | ready | running | parked _ | held _ =>
      have h1 := put (c := { b with missed := bump Config.counterLimit b.missed })
        ⟨rfl, rfl, rfl, .inl rfl⟩
      rw [hst] at h1
      exact h1.trans (.of_jobs rfl)

theorem keepsArmed_countdownJob (r : RingId) (head fill : Nat) (s : State) (j : JobId) :
    KeepsArmed s (countdownJob r head fill s j) := by
  unfold countdownJob
  cases hj : s.job j with
  | none => exact .refl s
  | some b =>
    have sound : ArmedLaw s → b.ArmedSound := fun hs => (armedLaw_iff s).mp hs j b hj
    simp only
    split
    · rename_i ha
      split
      · exact keepsArmed_trigger fun hs => (sound hs).count ha.1 ((sound hs).counting ha.1).2
      · rename_i hc
        exact .putSound fun hs _ hd => Option.some.inj hd ▸ (sound hs).count ha.1 (by omega)
    · exact .refl s

theorem keepsArmed_countdownStep (r : RingId) (head fill : Nat) (s : State) :
    KeepsArmed s (countdownStep r head fill s) :=
  .foldl (keepsArmed_countdownJob r head fill) allJobs s

theorem keepsArmed_writeSample (r : RingId) (g : Ring) (v : Word16) (s : State) :
    KeepsArmed s (writeSample r g v s) := by
  have h1 : KeepsArmed s
      ({ s with sampleMem := s.sampleMem.write (g.base + g.head % g.capacity) v }.putRing r
        (some g.taken)) := .of_jobs rfl
  exact h1.trans (keepsArmed_countdownStep _ _ _ _)

theorem keepsArmed_writeSamples (r : RingId) (ws : List Word16) (n : Nat) (s : State) :
    KeepsArmed s (writeSamples r ws n s).2 := by
  induction ws generalizing n s with
  | nil => exact .refl s
  | cons v ws ih =>
    unfold writeSamples
    cases s.ring r with
    | none => exact .refl s
    | some g =>
      simp only
      split
      · exact (keepsArmed_writeSample r g v s).trans (ih _ _)
      · exact .refl s

theorem keepsArmed_evictOverwritten (r : RingId) (g : Ring) (s : State) :
    KeepsArmed s (evictOverwritten r g s) := by
  unfold evictOverwritten
  split
  · exact keepsArmed_evictAll _ _ _
  · exact .refl s

/-! ### Deletion and teardown (02 R45, 08 R149) -/

theorem jobs_endFire (j : JobId) (b : Job) (s : State) : (endFire j b s).jobs = s.jobs := by
  unfold endFire
  cases hs : b.state with
  | held r => rfl
  | _ => exact jobs_abandon j b s

theorem keepsArmed_deleteJob (j : JobId) (s : State) : KeepsArmed s (deleteJob j s) := by
  unfold deleteJob
  cases s.job j with
  | none => exact .refl s
  | some b =>
    have h1 : KeepsArmed s (purge b.owner j (endFire j b s)) :=
      (KeepsArmed.of_jobs (jobs_endFire j b s)).trans (keepsArmed_purge _ _ _)
    refine h1.trans (.trans (.of_jobs ?_) (.putSound fun _ c hc => by cases hc))
    exact (unrefSet_only _ _).jobs.trans (unrefRing_only _ _).jobs

theorem keepsArmed_deleteOwned (x : Port) (s : State) (j : JobId) : KeepsArmed s (deleteOwned x s j) := by
  unfold deleteOwned
  cases s.job j with
  | none => exact .refl s
  | some b =>
    simp only
    split
    · exact keepsArmed_deleteJob j s
    · exact .refl s

theorem jobs_leaveRing (x : Port) (s : State) (r : RingId) : (leaveRing x s r).jobs = s.jobs := by
  unfold leaveRing
  cases s.ring r with
  | none => rfl
  | some g =>
    simp only
    split
    · split
      · exact (freeRing_only r s).jobs
      · rfl
    · rfl

theorem jobs_leaveSet (x : Port) (s : State) (c : SetId) : (leaveSet x s c).jobs = s.jobs := by
  unfold leaveSet
  cases s.coef c with
  | none => rfl
  | some v =>
    cases hp : v.phase with
    | loading => simp only [hp]
    | ready o crc =>
      simp only [hp]
      split
      · split
        · exact (freeSet_only c s).jobs
        · rfl
      · rfl

theorem jobs_closeLoad (x : Port) (s : State) : (closeLoad x s).jobs = s.jobs := by
  unfold closeLoad
  cases (s.session x).load with
  | none => rfl
  | some l => exact (freeSet_only l.set s).jobs

theorem keepsArmed_teardown (x : Port) (s : State) : KeepsArmed s (teardown x s) := by
  have h1 : KeepsArmed s (closeLoad x s) := .of_jobs (jobs_closeLoad x s)
  have h2 := h1.trans (.foldl (keepsArmed_deleteOwned x) allJobs _)
  have h3 := h2.trans (.foldl (fun s r => .of_jobs (jobs_leaveRing x s r)) allRings _)
  have h4 := h3.trans (.foldl (fun s c => .of_jobs (jobs_leaveSet x s c)) allSets _)
  exact h4.trans (.putSession _ x Session.closed)

theorem keepsArmed_teardownIfOpen (x : Port) (s : State) : KeepsArmed s (teardownIfOpen x s) := by
  unfold teardownIfOpen
  split
  · exact keepsArmed_teardown x s
  · exact .refl s

end Sys2Proof.Machine
end

section
/-! SUPPORT. Every happening keeps the law of the armed flag and the countdown: sending, the blocks of the
commands, arrivals, ports and timers, and so every step (02 R26). -/

namespace Sys2Proof.Machine

/-! ### Sending and the transmitters (09 R157, R159; 10 R174 to R180) -/

/-- A sent ALERT sets a reported class alone (05 R98). -/
theorem keepsArmed_sendEntry (x : Port) (e : Entry) (rest : List Entry) (s : State) :
    KeepsArmed s (sendEntry x e rest s) := by
  have h1 : KeepsArmed s (reportClass e s) := by
    unfold reportClass
    cases e with
    | alert j c v run n =>
      cases hj : s.job j with
      | none => simp only [hj]; exact .refl s
      | some b =>
        cases hw : b.watch with
        | none => simp only [hj, hw]; exact .refl s
        | some w => simp only [hj, hw]; exact .putJob hj ⟨rfl, rfl, rfl, .inl rfl⟩
    | fault j r n => exact .refl s
    | overrun j n => exact .refl s
    | results => exact .refl s
  exact h1.trans (.of_jobs rfl)

theorem keepsArmed_arbiter (p : Port) (s : State) : KeepsArmed s (arbiter p s).2 := by
  unfold arbiter
  cases (s.port p).fifo with
  | cons f rest => exact .of_jobs rfl
  | nil =>
    cases offer p s with
    | again n => exact .of_jobs rfl
    | fresh e rest => exact keepsArmed_sendEntry p e rest s
    | nothing => exact .refl s

theorem keepsArmed_askU (s : State) : KeepsArmed s (askU s) := by
  unfold askU
  cases s.txU with
  | some f => exact .refl s
  | none => exact (keepsArmed_arbiter .u s).trans (.of_jobs rfl)

theorem keepsArmed_askS (s : State) : KeepsArmed s (askS s) := by
  have h := keepsArmed_arbiter .s s
  unfold askS
  rcases ha : arbiter .s s with ⟨f, s'⟩
  rw [ha] at h
  cases f <;> exact h.trans (.of_jobs rfl)

theorem keepsArmed_finish (s : State) : KeepsArmed s (finish s) :=
  (keepsArmed_startStep s).trans (keepsArmed_askU _)

theorem jobs_noticeSent (x : Port) (f : Frame) (s : State) : (noticeSent x f s).jobs = s.jobs := by
  unfold noticeSent
  split <;> rfl

theorem jobs_endS (s : State) : (endS s).jobs = s.jobs := by
  unfold endS
  cases s.txS.current with
  | none => rfl
  | some o =>
    simp only
    split
    · exact jobs_noticeSent _ _ _
    · rfl

theorem keepsArmed_startExchange (s : State) : KeepsArmed s (startExchange s) := by
  have h : KeepsArmed s (select (endS s)) := .of_jobs (jobs_endS s)
  unfold startExchange
  simp only
  split
  · exact h.trans (keepsArmed_askS _)
  · exact h

theorem keepsArmed_exchangeS (s : State) : KeepsArmed s (exchangeS s) := by
  unfold exchangeS
  simp only
  split <;> exact (keepsArmed_startExchange s).trans (.of_jobs rfl)

/-! ### The blocks of the commands -/

/-- A block whose answer keeps the law. -/
def BlockKeepsArmed (act : List Byte → State → Option Answer) : Prop :=
  ∀ args s a, act args s = some a → KeepsArmed s a.state

theorem ChangesNothing.keepsArmed {act : List Byte → State → Option Answer} (h : ChangesNothing act) :
    BlockKeepsArmed act := fun args s a ha => .of_jobs (by rw [h args s a ha])

/-! A refusal leaves the state, so only what stands behind a block's last check matters. -/

theorem ringCreate_keepsArmed (x : Port) : BlockKeepsArmed (ringCreate x) := by
  intro args s a h
  unfold ringCreate at h
  split at h <;> cases h
  simp only
  iterate 6 (split; · exact .refl s)
  exact .of_jobs (bindSource_only _ _ _).jobs

theorem ringDelete_keepsArmed (x : Port) : BlockKeepsArmed (ringDelete x) := by
  intro args s a h
  unfold ringDelete at h
  split at h <;> cases h
  simp only
  iterate 4 (split; · exact .refl s)
  exact .of_jobs (freeRing_only _ s).jobs

theorem ringFlush_keepsArmed (x : Port) : BlockKeepsArmed (ringFlush x) := by
  intro args s a h
  unfold ringFlush at h
  split at h <;> cases h
  simp only
  iterate 3 (split; · exact .refl s)
  exact (keepsArmed_evictAll _ _ s).trans (.of_jobs rfl)

theorem ringWrite_keepsArmed (x : Port) : BlockKeepsArmed (ringWrite x) := by
  intro args s a h
  unfold ringWrite at h
  split at h
  · split at h
    · cases h
    · split at h <;> cases h
      simp only
      iterate 5 (split; · exact .refl s)
      exact keepsArmed_writeSamples _ _ 0 s
  · cases h

theorem setBegin_keepsArmed (x : Port) : BlockKeepsArmed (setBegin x) := by
  intro args s a h
  unfold setBegin at h
  split at h <;> cases h
  simp only
  iterate 5 (split; · exact .refl s)
  exact .of_jobs rfl

theorem setData_keepsArmed (x : Port) : BlockKeepsArmed (setData x) := by
  intro args s a h
  unfold setData at h
  split at h
  · split at h
    · cases h
    · split at h <;> cases h
      simp only
      iterate 4 (split; · exact .refl s)
      split
      · exact .of_jobs rfl
      · split <;> exact .refl s
  · cases h

theorem setEnd_keepsArmed (x : Port) : BlockKeepsArmed (setEnd x) := by
  intro args s a h
  unfold setEnd at h
  split at h <;> cases h
  simp only
  iterate 3 (split; · exact .refl s)
  split <;> exact .of_jobs rfl

theorem setAbort_keepsArmed (x : Port) : BlockKeepsArmed (setAbort x) := by
  intro args s a h
  unfold setAbort at h
  split at h <;> cases h
  split
  · exact .refl s
  · exact .of_jobs (freeSet_only _ s).jobs

theorem setDelete_keepsArmed (x : Port) : BlockKeepsArmed (setDelete x) := by
  intro args s a h
  unfold setDelete at h
  split at h <;> cases h
  simp only
  iterate 5 (split; · exact .refl s)
  exact .of_jobs (freeSet_only _ s).jobs

/-- A job just defined is DEFINED, not armed, with a countdown of 0 (02 R29). -/
theorem Job.armedSound_fresh (x : Port) (r : RingId) (c : SetId) (par : Params) (run : Word16) :
    (Job.fresh x r c par run).ArmedSound := ⟨fun _ => rfl, nofun, nofun, fun _ => rfl⟩

theorem keepsArmed_defineNew (x : Port) (j : JobId) (r : RingId) (c : SetId) (par : Params) (s : State) :
    KeepsArmed s (defineNew x j r c par s) := by
  have h1 : KeepsArmed s (refSet c (refRing r s)) :=
    .of_jobs ((refSet_only _ _).jobs.trans (refRing_only _ s).jobs)
  exact h1.trans (.putSound fun _ _ hd => Option.some.inj hd ▸ Job.armedSound_fresh x r c par 0)

theorem keepsArmed_redefine (x : Port) (j : JobId) (b : Job) (r : RingId) (c : SetId) (par : Params)
    (s : State) : KeepsArmed s (redefine x j b r c par s) := by
  have h1 : KeepsArmed s (unrefSet b.set (refSet c (unrefRing b.ring (refRing r s)))) :=
    .of_jobs (((unrefSet_only _ _).jobs.trans (refSet_only _ _).jobs).trans
      ((unrefRing_only _ _).jobs.trans (refRing_only _ s).jobs))
  have h2 := h1.trans (.putSound (j := j) fun _ _ hd =>
    Option.some.inj hd ▸ Job.armedSound_fresh x r c par b.runNumber)
  exact h2.trans (.of_jobs rfl)

theorem jobDefine_keepsArmed (x : Port) : BlockKeepsArmed (jobDefine x) := by
  intro args s a h
  unfold jobDefine at h
  split at h <;> cases h
  simp only
  iterate 3 (split; · exact .refl s)
  split
  · exact keepsArmed_defineNew x _ _ _ _ s
  · exact keepsArmed_redefine x _ _ _ _ _ s

/-- JOB_ARM loads a countdown above 0 when the stride is (02 R32). -/
theorem firstCountdown_pos {p : Params} (h : p.stride ≠ 0) : 0 < p.firstCountdown := by
  unfold Params.firstCountdown
  split <;> omega

theorem jobArm_keepsArmed (x : Port) : BlockKeepsArmed (jobArm x) := by
  intro args s a h
  unfold jobArm at h
  split at h <;> cases h
  simp only
  iterate 3 (split; · exact .refl s)
  rename_i j b _ _ hstride
  refine .putSound fun _ d hd => Option.some.inj hd ▸ ⟨fun hs => ?_, fun _ => rfl, fun _ =>
    ⟨firstCountdown_pos hstride, Nat.pos_of_ne_zero hstride⟩, nofun⟩
  simp only at hs
  split at hs
  · cases hs
  · exact absurd hs ‹_›

theorem jobStart_keepsArmed (x : Port) : BlockKeepsArmed (jobStart x) := by
  intro args s a h
  unfold jobStart at h
  split at h <;> cases h
  simp only
  split
  · exact .refl s
  rename_i j b hj
  iterate 2 (split; · exact .refl s)
  have h1 : KeepsArmed s (s.putJob j (some { b with
      state := .ready, windowStart := headOf b.ring s - b.par.length, triggerHead := headOf b.ring s,
      extra := true, preempted := false })) :=
    .putJob (ownedJob_ok hj) ⟨rfl, rfl, rfl, .inr (.inr ⟨nofun, nofun⟩)⟩
  exact h1.trans (.of_jobs rfl)

/-- A cancelled job is not armed and has a countdown of 0; it is DEFINED or HELD (02 R41 to R43). -/
theorem Job.armedSound_cancelled (b : Job) : b.cancelled.ArmedSound := by
  refine ⟨fun _ => rfl, fun h => ?_, nofun, fun _ => rfl⟩
  unfold Job.cancelled at h
  cases hs : b.state <;> simp [hs] at h

theorem jobCancel_keepsArmed (x : Port) : BlockKeepsArmed (jobCancel x) := by
  intro args s a h
  unfold jobCancel at h
  split at h <;> cases h
  simp only
  split
  · exact .refl s
  · rename_i j b _
    exact (KeepsArmed.of_jobs (jobs_abandon j b s)).trans
      (.putSound fun _ d hd => Option.some.inj hd ▸ b.armedSound_cancelled)

theorem jobDelete_keepsArmed (x : Port) : BlockKeepsArmed (jobDelete x) := by
  intro args s a h
  unfold jobDelete at h
  split at h <;> cases h
  split
  · exact .refl s
  · exact keepsArmed_deleteJob _ s

theorem keepsArmed_putWatch {x : Port} {j : JobId} {b : Job} {s : State} (w : Option Watch)
    (hj : s.job j = some b) : KeepsArmed s (putWatch x j b w s) := by
  have h1 : KeepsArmed s (s.putJob j (some { b with watch := w })) := .putJob hj ⟨rfl, rfl, rfl, .inl rfl⟩
  exact h1.trans (.of_jobs rfl)

theorem jobWatch_keepsArmed (x : Port) : BlockKeepsArmed (jobWatch x) := by
  intro args s a h
  unfold jobWatch at h
  split at h <;> cases h
  simp only
  split
  · exact .refl s
  rename_i j b hj
  split
  · exact keepsArmed_putWatch none (ownedJob_ok hj)
  iterate 2 (split; · exact .refl s)
  exact keepsArmed_putWatch _ (ownedJob_ok hj)

theorem fetchBlock_keepsArmed (x : Port) : BlockKeepsArmed (fetchBlock x) := by
  intro args s a h
  unfold fetchBlock at h
  split at h <;> cases h
  simp only
  split
  · exact .refl s
  · exact keepsArmed_removeOldest x _ s

/-! ### The execution of a command (08 R143 to R147) -/

theorem keepsArmed_reply (x : Port) (f : Frame) (s : State) : KeepsArmed s (reply x f s) := .of_jobs rfl

theorem keepsArmed_execute {x : Port} {code : Byte} {act : List Byte → State → Option Answer}
    (hact : BlockKeepsArmed act) {s t : State} (h : execute x code act s = some t) : KeepsArmed s t := by
  have htake : ∀ rest, KeepsArmed s (takeCommand x rest s) := fun rest => .of_jobs rfl
  unfold execute at h
  split at h
  · split at h
    · simp only at h
      split at h <;> cases h
      · rename_i ha
        exact ((htake _).trans (hact _ _ _ ha)).trans (keepsArmed_reply _ _ _)
      · exact (htake _).trans (keepsArmed_reply _ _ _)
    · cases h
  · cases h

theorem keepsArmed_runCommand {act : List Byte → State → Option Answer} (hact : BlockKeepsArmed act)
    (x : Port) (code : Byte) (s : State) : KeepsArmed s (runCommand x code act s) := by
  unfold runCommand
  cases h : execute x code act s with
  | none => exact .refl s
  | some t => exact (keepsArmed_execute hact h).trans (keepsArmed_finish t)

theorem keepsArmed_badKind (x : Port) (s : State) : KeepsArmed s (badKind x s) := by
  unfold badKind
  cases nextCommand x s with
  | none => exact .refl s
  | some cr =>
    simp only
    split
    · exact .refl s
    · have h1 : KeepsArmed s (takeCommand x cr.2 s) := .of_jobs rfl
      exact (h1.trans (keepsArmed_reply x _ _)).trans (keepsArmed_finish _)

theorem keepsArmed_bye (x : Port) (s : State) : KeepsArmed s (bye x s) := by
  unfold bye
  cases h : execute x 0x11 byeBlock s with
  | none => exact .refl s
  | some t =>
    have h1 := keepsArmed_execute byeBlock_changesNothing.keepsArmed h
    refine .trans ?_ (keepsArmed_finish _)
    split
    · exact h1.trans (keepsArmed_teardown x t)
    · exact h1

/-! ### Arrivals, bytes and timers (08 R133 to R141, 09 R160 to R163, 10 R168 to R173) -/

theorem jobs_placeIfRoom (x : Port) (f : Frame) (s : State) : (placeIfRoom x f s).jobs = s.jobs := by
  unfold placeIfRoom
  split <;> rfl

theorem keepsArmed_arriveHello (x : Port) (f : Frame) (s : State) : KeepsArmed s (arriveHello x f s) := by
  have refused : ∀ st, KeepsArmed s (place x (replyFrame f.seq st codeHello []) s) := fun st => .of_jobs rfl
  unfold arriveHello
  split
  · unfold takeHello
    simp only
    split
    · iterate 3 (split; · exact refused _)
      exact (keepsArmed_teardownIfOpen x s).trans (.of_jobs rfl)
    · exact refused _
  · exact .refl s

theorem jobs_accept (x : Port) (f : Frame) (s : State) : (accept x f s).jobs = s.jobs := by
  unfold accept
  simp only
  split
  · split
    · rfl
    · exact jobs_placeIfRoom _ _ _
  · split
    · rfl
    · split <;> exact jobs_placeIfRoom _ _ _

theorem keepsArmed_arriveCommand (x : Port) (f : Frame) (s : State) :
    KeepsArmed s (arriveCommand x f s) := by
  unfold arriveCommand
  split
  · exact keepsArmed_arriveHello x f s
  · split
    · exact .of_jobs (jobs_accept x f s)
    · exact .of_jobs (jobs_placeIfRoom _ _ _)

theorem jobs_arriveAck (x : Port) (f : Frame) (s : State) : (arriveAck x f s).jobs = s.jobs := by
  unfold arriveAck
  split
  · cases younger f.seq (s.session x).inFlight <;> rfl
  · rfl

theorem keepsArmed_resolve (p : Port) (f : Frame) (good : Bool) (s : State) :
    KeepsArmed s (resolve p f good s) := by
  unfold resolve
  split
  · exact .of_jobs rfl
  · split
    · exact keepsArmed_arriveCommand p f s
    · split
      · exact .of_jobs (jobs_arriveAck p f s)
      · split <;> exact .of_jobs rfl

theorem keepsArmed_deliver (p : Port) (b : Byte) (s : State) : KeepsArmed s (deliver p b s) := by
  have h1 : KeepsArmed s (exchange p s) := by
    cases p
    · exact .refl s
    · exact keepsArmed_exchangeS s
  have h2 : KeepsArmed s (noteByteU p (exchange p s)) := h1.trans (by cases p <;> exact .of_jobs rfl)
  have h3 : KeepsArmed s ((noteByteU p (exchange p s)).modPort p fun q =>
      { q with rx := (((noteByteU p (exchange p s)).port p).rx.take b).1 }) := h2.trans (.of_jobs rfl)
  unfold deliver
  simp only
  split
  · exact h3
  · exact h3.trans (.of_jobs rfl)
  · exact h3.trans (keepsArmed_resolve p _ _ _)

theorem keepsArmed_expire (x : Port) (s : State) : KeepsArmed s (expire x s) := by
  unfold expire
  split
  · exact .of_jobs rfl
  · exact (keepsArmed_teardownIfOpen x s).trans (.of_jobs rfl)

theorem keepsArmed_hear (p : Port) (b : Byte) (s : State) : KeepsArmed s (hear p b s) := by
  have h := (keepsArmed_deliver p b s).trans (keepsArmed_finish _)
  unfold hear
  simp only
  split
  · refine h.trans ?_
    rcases expireOverdue_cases p (finish (deliver p b s)) with ⟨-, he⟩ | ⟨-, he⟩ <;> rw [he]
    · exact (keepsArmed_expire p _).trans (keepsArmed_finish _)
    · exact .refl _
  · exact h

theorem jobs_breakPartial (p : Port) (s : State) : (breakPartial p s).jobs = s.jobs := by
  unfold breakPartial
  split <;> rfl

theorem keepsArmed_linkReset (s : State) : KeepsArmed s (linkReset s) := by
  have h1 : KeepsArmed s (s.modPort .u fun q => { q with rx := .hunt }) := .of_jobs rfl
  exact (h1.trans (keepsArmed_teardownIfOpen .u _)).trans (.of_jobs rfl)

theorem keepsArmed_timed {due : State → Option Nat} {act : State → State}
    (hact : ∀ u, KeepsArmed u (act u)) {s t : State} (h : timed due act s = .next t) : KeepsArmed s t := by
  rcases timed_cases due act s with ⟨n, -, -, hn⟩ | ⟨-, hn⟩ <;> rw [hn] at h <;> cases h
  · have h1 : KeepsArmed s (advanceTo n (endS s)) := .of_jobs (jobs_endS s)
    exact (h1.trans (hact _)).trans (keepsArmed_finish _)
  · exact .refl s

/-! ### The sample port (01 R9, R12) -/

theorem keepsArmed_sampleArrival (c : ChannelId) (v : Word16) (s : State) :
    KeepsArmed s (sampleArrival c v s) := by
  unfold sampleArrival
  cases s.binding c with
  | none => exact .refl s
  | some r =>
    simp only
    cases s.ring r with
    | none => exact .refl s
    | some g =>
      simp only
      split
      · exact ((keepsArmed_evictOverwritten r g s).trans (keepsArmed_writeSample r g v _)).trans
          (keepsArmed_finish _)
      · exact .refl s

theorem keepsArmed_clockSample (s : State) (t : SpPeriod) : KeepsArmed s (clockSample s t) := by
  have word : ∀ l, KeepsArmed s { s with spWord := l } := fun l => .of_jobs rfl
  unfold clockSample
  split
  · exact word _
  · split
    · exact .refl s
    · simp only
      split
      · exact word _
      · exact (word []).trans (keepsArmed_sampleArrival _ _ _)

/-! ### Every step -/

/-- A happening whose condition fails leaves the state (log 2). -/
theorem keepsArmed_ite {p : Prop} [Decidable p] {s t u : State} (hu : KeepsArmed s u)
    (h : (if p then Host.Outcome.next (finish u) else .next s) =
      Host.Outcome.next (φ := Fault) (ρ := Refusal) t) : KeepsArmed s t := by
  split at h <;> cases h
  · exact hu.trans (keepsArmed_finish u)
  · exact .refl s

theorem keepsArmed_runHappening {s t : State} (h : execSegmentEnd s = .next t ∨ execRunEnd s = .next t) :
    KeepsArmed s t := by
  unfold execSegmentEnd execRunEnd at h
  cases hf : inFlightRun s with
  | none => simp only [hf, or_self] at h; cases h; exact .refl s
  | some rb =>
    obtain ⟨run, b⟩ := rb
    have hb := (job_of_inFlightRun hf).2
    simp only [hf] at h
    rcases h with h | h
    · exact keepsArmed_ite (keepsArmed_segmentEnd hb) h
    · rw [← ite_not] at h
      exact keepsArmed_ite (keepsArmed_runEnd hb) h

theorem keepsArmed_exec {i : Instr} {s t : State} (h : exec i s = .next t) : KeepsArmed s t := by
  have run : ∀ {act x code}, BlockKeepsArmed act →
      Host.Outcome.next (φ := Fault) (ρ := Refusal) (runCommand x code act s) = .next t →
      KeepsArmed s t := fun hact h => by
    cases h
    exact keepsArmed_runCommand hact _ _ s
  cases i with
  | rstn baud lines =>
    cases h
    exact fun _ => (armedLaw_iff _).mpr fun j b hb => by simp at hb
  | sampleArrival periods => cases h; exact .foldl keepsArmed_clockSample periods s
  | segmentEnd => exact keepsArmed_runHappening (.inl h)
  | runEnd => exact keepsArmed_runHappening (.inr h)
  | frameResolution p last =>
    simp only [exec, execFrameResolution] at h
    split at h <;> cases h
    · exact keepsArmed_hear p last s
    · exact .refl s
  | frameLengthError p len => exact keepsArmed_ite (keepsArmed_deliver p len s) h
  | hello p last => exact keepsArmed_ite (keepsArmed_deliver p last s) h
  | badKind x => cases h; exact keepsArmed_badKind x s
  | bye x => cases h; exact keepsArmed_bye x s
  | status x => exact run (statusBlock_changesNothing x).keepsArmed h
  | ringCreate x => exact run (ringCreate_keepsArmed x) h
  | ringDelete x => exact run (ringDelete_keepsArmed x) h
  | ringFlush x => exact run (ringFlush_keepsArmed x) h
  | ringWrite x => exact run (ringWrite_keepsArmed x) h
  | ringRead x => exact run ringRead_changesNothing.keepsArmed h
  | ringQuery x => exact run ringQuery_changesNothing.keepsArmed h
  | setBegin x => exact run (setBegin_keepsArmed x) h
  | setData x => exact run (setData_keepsArmed x) h
  | setEnd x => exact run (setEnd_keepsArmed x) h
  | setAbort x => exact run (setAbort_keepsArmed x) h
  | setDelete x => exact run (setDelete_keepsArmed x) h
  | setQuery x => exact run setQuery_changesNothing.keepsArmed h
  | memQuery x => exact run memQuery_changesNothing.keepsArmed h
  | jobDefine x => exact run (jobDefine_keepsArmed x) h
  | jobArm x => exact run (jobArm_keepsArmed x) h
  | jobStart x => exact run (jobStart_keepsArmed x) h
  | jobCancel x => exact run (jobCancel_keepsArmed x) h
  | jobDelete x => exact run (jobDelete_keepsArmed x) h
  | jobQuery x => exact run jobQuery_changesNothing.keepsArmed h
  | jobWatch x => exact run (jobWatch_keepsArmed x) h
  | fetch x => exact run (fetchBlock_keepsArmed x) h
  | transmitArbiterChoice p =>
    cases p with
    | u => exact keepsArmed_ite (.refl s) h
    | s => cases h; exact (keepsArmed_startExchange s).trans (keepsArmed_finish _)
  | transmissionEnd p =>
    cases p with
    | u =>
      simp only [exec, execTransmissionEnd] at h
      split at h <;> cases h
      · rename_i f _
        have h1 : KeepsArmed s (endU f s) := .of_jobs (jobs_noticeSent .u f { s with txU := none })
        exact h1.trans (keepsArmed_finish _)
      · exact .refl s
    | s => exact keepsArmed_ite (.of_jobs (jobs_endS s)) h
  | noticeTimerExpiry x =>
    exact keepsArmed_timed (due := fun s => (s.session x).timer) (keepsArmed_expire x) h
  | framingError counted =>
    cases h
    have h1 : KeepsArmed s { breakPartial .u s with urx := .atSpace (spaceSince counted s) s.ms } :=
      .of_jobs (jobs_breakPartial .u s)
    exact h1.trans (keepsArmed_finish _)
  | interByteGap => exact keepsArmed_timed (act := dropPartial .u) (fun _ => .of_jobs rfl) h
  | linkReset => exact keepsArmed_timed keepsArmed_linkReset h
  | deselect =>
    have h1 : KeepsArmed s (breakPartial .s (deselect (endS s))) :=
      .of_jobs ((jobs_breakPartial .s (deselect (endS s))).trans (jobs_endS s))
    exact keepsArmed_ite h1 h
  | byteDelivered p b => cases h; exact keepsArmed_hear p b s

/-- Settles O49: each operation of a happening leaves the job table or replaces one record by one that meets
the law, so the chain of them that a step is keeps it. -/
theorem stepKeepsTheArmedLaw : Obligations.StepKeepsTheArmedLaw := by
  intro s t hs h
  unfold step at h
  split at h
  · rename_i c rest _
    exact keepsArmed_exec (s := { s with pending := rest }) h hs
  · unfold idle at h
    split at h
    · exact keepsArmed_exec h hs
    · cases h
      exact hs

end Sys2Proof.Machine
end

section
/-! SUPPORT. What evictions leave, job by job, class by class and session by session (01 R11, 02 R39, R40, 03
R55, R66). -/

namespace Sys2Proof.Machine

/-! ### One victim -/

/-- The record of a job that has been evicted (02 R39). -/
def Job.evicted (b : Job) : Job :=
  { b with state := if b.armed then .armed else .defined, lost := bump Config.counterLimit b.lost }

/-- The job's run is in flight (03 R53). -/
def runsIn (s : State) (j : JobId) : Bool := (s.job j).any fun b => b.state = .running

/-- What evictions leave once they have reached the jobs of a list, each once, in their order. -/
structure Evicted (r : RingId) (l : List JobId) (s t : State) : Prop where
  frame : t = { s with jobs := t.jobs, ready := t.ready, psu := t.psu, sessions := t.sessions }
  job : ∀ j, t.job j = if j ∈ l then (s.job j).map Job.evicted else s.job j
  cls : ∀ c, t.cls c = (s.cls c).filter fun j => !(l.contains j && waitsIn c s j)
  psu : t.psu = if l.any (runsIn s) then none else s.psu
  session : ∀ y, t.session y = { s.session y with
    pendingList := (l.filter (ownedBy y s)).foldl (fun m j => requestFault j r m)
      (s.session y).pendingList }

theorem waitsIn_eq {s : State} {j : JobId} {b : Job} (hb : s.job j = some b) (c : ClassId) :
    waitsIn c s j = (b.state.waits && decide (b.par.priority = c)) := by simp [waitsIn, hb]

theorem ownedBy_eq {s : State} {j : JobId} {b : Job} (hb : s.job j = some b) (y : Port) :
    ownedBy y s j = decide (b.owner = y) := by simp [ownedBy, hb]

theorem runsIn_eq {s : State} {j : JobId} {b : Job} (hb : s.job j = some b) :
    runsIn s j = decide (b.state = .running) := by simp [runsIn, hb]

/-- A class that a job does not wait in keeps its order without that job's eviction. -/
theorem filter_not_waiting {l : List JobId} {j : JobId} {c : ClassId} {s : State}
    (h : waitsIn c s j = false) :
    l.filter (fun k => !([j].contains k && waitsIn c s k)) = l := by
  refine List.filter_eq_self.mpr fun k _ => ?_
  by_cases hk : k = j
  · subst hk; simp [h]
  · simp [hk]

/-- A class that a job waits in loses that job (03 R55). -/
theorem filter_waiting {l : List JobId} {j : JobId} {c : ClassId} {s : State}
    (h : waitsIn c s j = true) :
    l.filter (fun k => !([j].contains k && waitsIn c s k)) = l.filter fun k => k ≠ j := by
  refine List.filter_congr fun k _ => ?_
  by_cases hk : k = j
  · subst hk; simp [h]
  · simp [hk]

/-- The eviction of one pinning job (02 R39, R40, 03 R66). -/
theorem evicted_evict (r : RingId) {s : State} {j : JobId} {b : Job} (hb : s.job j = some b)
    (hp : b.state.pins = true) : Evicted r [j] s (evict r s j) := by
  rw [evict_eq hb hp]
  refine ⟨rfl, fun k => ?_, fun c => ?_, ?_, fun y => ?_⟩
  · by_cases hk : k = j
    · subst hk; simp [hb, Job.evicted]
    · simp [hk, State.look_jobs]
  · have hw := waitsIn_eq hb c
    by_cases hc : b.state.waits = true ∧ b.par.priority = c
    · obtain ⟨hc, rfl⟩ := hc
      rw [filter_waiting (by simp [hw, hc])]
      simp [hc]
    · rw [filter_not_waiting (by simpa [hw] using hc)]
      by_cases hs : b.state.waits = true
      · have hne : c ≠ b.par.priority := fun e => hc ⟨hs, e.symm⟩
        simp [hs, hne, State.look_ready]
      · simp [hs, State.look_ready]
  · simp [runsIn_eq hb]
  · by_cases hy : y = b.owner
    · subst hy; simp [ownedBy_eq hb]
    · simp [ownedBy_eq hb, hy, Ne.symm hy, State.look_sessions]

/-! ### All victims -/

/-- Evictions that go on behind the first victim. -/
theorem Evicted.cons {r : RingId} {j : JobId} {l : List JobId} {s t u : State} (hj : j ∉ l)
    (h : Evicted r [j] s t) (h' : Evicted r l t u) : Evicted r (j :: l) s u := by
  have hother : ∀ k, k ≠ j → t.job k = s.job k := fun k hk => by
    rw [h.job, if_neg (by simpa using hk)]
  have hmem : ∀ k ∈ l, t.job k = s.job k := fun k hk => hother k fun e => hj (e ▸ hk)
  have hruns : l.any (runsIn t) = l.any (runsIn s) :=
    Bool.eq_iff_iff.mpr <| by
      simp only [List.any_eq_true]
      exact exists_congr fun k => and_congr_right fun hk => by simp only [runsIn, hmem k hk]
  have howned : ∀ y, l.filter (ownedBy y t) = l.filter (ownedBy y s) := fun y =>
    List.filter_congr fun k hk => by simp only [ownedBy, hmem k hk]
  refine ⟨?_, fun k => ?_, fun c => ?_, ?_, fun y => ?_⟩
  · rw [h'.frame, h.frame]
  · by_cases hk : k ∈ l
    · simp [h'.job, hk, hmem k hk]
    · simp [h'.job, h.job, hk]
  · rw [h'.cls, h.cls, List.filter_filter]
    refine List.filter_congr fun k _ => ?_
    by_cases hk : k = j
    · subst hk; simp [hj]
    · have hw : waitsIn c t k = waitsIn c s k := by simp only [waitsIn, hother k hk]
      simp [hk, hw]
  · rw [h'.psu, h.psu, hruns]
    cases hl : l.any (runsIn s) <;> cases hr : runsIn s j <;> simp [hl, hr]
  · rw [h'.session, h.session, howned, ← List.foldl_append, ← List.filter_append, List.singleton_append]

/-- What the evictions of distinct pinning jobs leave (01 R11). -/
theorem evicted_evictAll (r : RingId) (l : List JobId) (s : State) (hl : l.Nodup)
    (hp : ∀ j ∈ l, ∃ b, s.job j = some b ∧ b.state.pins = true) : Evicted r l s (evictAll r l s) := by
  induction l generalizing s with
  | nil => exact ⟨rfl, fun _ => by simp [evictAll], fun _ => by simp [evictAll], by simp [evictAll],
      fun _ => by simp [evictAll]⟩
  | cons j l ih =>
    obtain ⟨hj, hl⟩ := List.nodup_cons.mp hl
    obtain ⟨b, hb, hpins⟩ := hp j (by simp)
    have h := evicted_evict r hb hpins
    refine h.cons hj (ih _ hl fun k hk => ?_)
    have hne : k ≠ j := fun e => hj (e ▸ hk)
    rw [h.job, if_neg (by simpa using hne)]
    exact hp k (by simp [hk])

/-! ### The statement -/

/-- Settles O12: each eviction is that of `evicted_evict`, and they follow one another by `Evicted.cons`. -/
theorem evictionsTakeEachVictimToItsReturnState : Obligations.EvictionsTakeEachVictimToItsReturnState := by
  refine ⟨fun j r l h => requestFault_new (any_false_of_forall h), fun j r r' n pre post h hn => ?fold,
    fun r victims s hl hp => ?_⟩
  case fold => rw [requestFault_fold (any_false_of_forall h), bump_eq_min hn]
  have h := evicted_evictAll r victims s hl hp
  refine ⟨_, _, _, _, h.frame, fun j b hj hb => ?victim, fun j hj => ?other, h.cls, fun hr => ?run,
    fun hr => ?noRun, h.session⟩
  case victim =>
    rw [State.look_jobs, h.job, if_pos hj, hb]
    rfl
  case other => rw [State.look_jobs, h.job, if_neg hj]
  case run =>
    obtain ⟨j, b, hj, hb, hs⟩ := hr
    rw [h.psu, if_pos (List.any_eq_true.mpr ⟨j, hj, by simp [runsIn_eq hb, hs]⟩)]
  case noRun =>
    have hnone : victims.any (runsIn s) = false := List.any_eq_false.mpr fun j hj => by
      obtain ⟨b, hb, -⟩ := hp j hj
      simp [runsIn_eq hb, hr j b hj hb]
    rw [h.psu, hnone]
    rfl

end Sys2Proof.Machine
end

section
/-! SUPPORT. The work of a job command does not see the queue its command came from; and the checks that the
job commands begin with (02 R27, 08 R145). -/

namespace Sys2Proof.Machine

/-! ### Behind the command queue: updates of records -/

theorem putJob_takeCommand (x : Port) (l : List Command) (j : JobId) (v : Option Job) (s : State) :
    (takeCommand x l s).putJob j v = takeCommand x l (s.putJob j v) := rfl

theorem putCoef_takeCommand (x : Port) (l : List Command) (c : SetId) (v : Option CoefSet) (s : State) :
    (takeCommand x l s).putCoef c v = takeCommand x l (s.putCoef c v) := rfl

/-- A change of a session's record that does not touch its queue. -/
theorem modSession_takeCommand (x y : Port) (l : List Command) {f : Session → Session}
    (hf : ∀ z q, f { z with queue := q } = { f z with queue := q }) (s : State) :
    (takeCommand x l s).modSession y f = takeCommand x l (s.modSession y f) := by
  have hu := hf s.sessions.u l
  have hs := hf s.sessions.s l
  cases x <;> cases y <;>
    simp only [takeCommand, State.modSession, State.putSession, State.session, Pair.look, Pair.put, hu, hs]

theorem results_takeCommand (x y : Port) (l : List Command) (s : State) :
    ((takeCommand x l s).session y).results = (s.session y).results := by
  rw [session_takeCommand]; split <;> simp_all

theorem heldOrder_takeCommand (x y : Port) (l : List Command) (s : State) :
    ((takeCommand x l s).session y).heldOrder = (s.session y).heldOrder := by
  rw [session_takeCommand]; split <;> simp_all

theorem pendingList_takeCommand (x y : Port) (l : List Command) (s : State) :
    ((takeCommand x l s).session y).pendingList = (s.session y).pendingList := by
  rw [session_takeCommand]; split <;> simp_all

theorem resultsNotify_takeCommand (x y : Port) (l : List Command) (s : State) :
    ((takeCommand x l s).session y).resultsNotify = (s.session y).resultsNotify := by
  rw [session_takeCommand]; split <;> simp_all

/-! ### Behind the command queue: shared operations -/

theorem abandon_takeCommand (x : Port) (l : List Command) (j : JobId) (b : Job) (s : State) :
    abandon j b (takeCommand x l s) = takeCommand x l (abandon j b s) := by
  unfold abandon
  cases b.state <;> rfl

theorem fire_takeCommand (x : Port) (l : List Command) (j : JobId) (b : Job) (head : Nat) (extra : Bool)
    (s : State) : fire j b head extra (takeCommand x l s) = takeCommand x l (fire j b head extra s) := rfl

theorem refRing_takeCommand (x : Port) (l : List Command) (r : RingId) (s : State) :
    refRing r (takeCommand x l s) = takeCommand x l (refRing r s) := by
  unfold refRing
  rw [ring_takeCommand]
  cases s.ring r <;> rfl

theorem unrefRing_takeCommand (x : Port) (l : List Command) (r : RingId) (s : State) :
    unrefRing r (takeCommand x l s) = takeCommand x l (unrefRing r s) := by
  unfold unrefRing
  rw [ring_takeCommand]
  cases s.ring r with
  | none => rfl
  | some g =>
    simp only [flushed_takeCommand, freeRing_takeCommand]
    split <;> rfl

theorem refSet_takeCommand (x : Port) (l : List Command) (c : SetId) (s : State) :
    refSet c (takeCommand x l s) = takeCommand x l (refSet c s) := by
  unfold refSet
  rw [coef_takeCommand]
  cases s.coef c <;> rfl

theorem freeSet_takeCommand (x : Port) (l : List Command) (c : SetId) (s : State) :
    freeSet c (takeCommand x l s) = takeCommand x l (freeSet c s) := by
  unfold freeSet
  rw [coef_takeCommand]
  cases s.coef c <;> rfl

theorem unrefSet_takeCommand (x : Port) (l : List Command) (c : SetId) (s : State) :
    unrefSet c (takeCommand x l s) = takeCommand x l (unrefSet c s) := by
  unfold unrefSet
  rw [coef_takeCommand]
  cases s.coef c with
  | none => rfl
  | some v =>
    simp only [putCoef_takeCommand, freeSet_takeCommand]
    split <;> rfl

theorem endFire_takeCommand (x : Port) (l : List Command) (j : JobId) (b : Job) (s : State) :
    endFire j b (takeCommand x l s) = takeCommand x l (endFire j b s) := by
  unfold endFire
  split
  · exact modSession_takeCommand x b.owner l (fun _ _ => rfl) s
  · exact abandon_takeCommand x l j b s

theorem moveHeld_takeCommand (x y : Port) (l : List Command) (j : JobId) (rest : List JobId) (s : State) :
    moveHeld y j rest (takeCommand x l s) = takeCommand x l (moveHeld y j rest s) := by
  have drop := modSession_takeCommand x y l (f := fun z => { z with heldOrder := rest })
    (fun _ _ => rfl) s
  unfold moveHeld
  rw [job_takeCommand]
  cases s.job j with
  | none => exact drop
  | some b =>
    simp only
    split
    · rename_i r _
      rw [modSession_takeCommand x y l (fun _ _ => rfl), putJob_takeCommand]
    · exact drop

theorem heldMove_takeCommand (x y : Port) (l : List Command) (s : State) :
    heldMove y (takeCommand x l s) = takeCommand x l (heldMove y s) := by
  unfold heldMove
  rw [heldOrder_takeCommand]
  generalize (s.session y).heldOrder = js
  induction js generalizing s with
  | nil => rfl
  | cons j rest ih =>
    simp only [heldMoves, results_takeCommand, moveHeld_takeCommand, ih]
    split <;> rfl

theorem resultsCheck_eq (x : Port) (before : List Record) (s : State) : resultsCheck x before s =
    if (s.session x).results.isEmpty = true then
      s.modSession x fun z => { z with pendingList := withdrawResults z.pendingList }
    else if before.isEmpty = true ∧ (s.session x).resultsNotify = true ∧
        ¬ (s.session x).pendingList.any Entry.isResults = true then
      s.modSession x fun z => { z with pendingList := z.pendingList ++ [.results] }
    else s := rfl

theorem resultsCheck_takeCommand (x y : Port) (l : List Command) (before : List Record) (s : State) :
    resultsCheck y before (takeCommand x l s) = takeCommand x l (resultsCheck y before s) := by
  simp only [resultsCheck_eq, results_takeCommand, resultsNotify_takeCommand, pendingList_takeCommand]
  rw [modSession_takeCommand x y l (fun _ _ => rfl), modSession_takeCommand x y l (fun _ _ => rfl)]
  split
  · rfl
  · split <;> rfl

theorem purge_takeCommand (x y : Port) (l : List Command) (j : JobId) (s : State) :
    purge y j (takeCommand x l s) = takeCommand x l (purge y j s) := by
  unfold purge
  simp only [results_takeCommand]
  rw [modSession_takeCommand x y l (fun _ _ => rfl)]
  split
  · rw [heldMove_takeCommand, resultsCheck_takeCommand]
  · rw [resultsCheck_takeCommand]

theorem deleteJob_takeCommand (x : Port) (l : List Command) (j : JobId) (s : State) :
    deleteJob j (takeCommand x l s) = takeCommand x l (deleteJob j s) := by
  unfold deleteJob
  rw [job_takeCommand]
  cases s.job j with
  | none => rfl
  | some b =>
    simp only
    rw [endFire_takeCommand, purge_takeCommand, modSession_takeCommand x b.owner l (fun _ _ => rfl),
      unrefRing_takeCommand, unrefSet_takeCommand, putJob_takeCommand]

theorem putWatch_takeCommand (x y : Port) (l : List Command) (j : JobId) (b : Job) (w : Option Watch)
    (s : State) : putWatch y j b w (takeCommand x l s) = takeCommand x l (putWatch y j b w s) := by
  unfold putWatch
  rw [putJob_takeCommand, modSession_takeCommand x y l (fun _ _ => rfl)]

/-! ### The checks of 02 R27 -/

theorem ownedJob_noId {id : Byte} (x : Port) (s : State) (h : 32 ≤ id.toNat) :
    ownedJob x id s = .error .badArg := by simp [ownedJob, jobId?_eq_none h]

theorem ownedJob_empty {j : JobId} {s : State} (x : Port) (h : s.job j = none) :
    ownedJob x (idByte j) s = .error .notFound := by simp [ownedJob, h]

theorem ownedJob_foreign {x : Port} {j : JobId} {b : Job} {s : State} (h : s.job j = some b)
    (ho : b.owner ≠ x) : ownedJob x (idByte j) s = .error .notOwner := by simp [ownedJob, h, ho]

theorem ownedJob_own {x : Port} {j : JobId} {b : Job} {s : State} (h : s.job j = some b)
    (ho : b.owner = x) : ownedJob x (idByte j) s = .ok (j, b) := by simp [ownedJob, h, ho]

end Sys2Proof.Machine
end

section
/-! SUPPORT. JOB_ARM, JOB_START, JOB_CANCEL and JOB_WATCH (02 R27, R32, R33, R38, R41 to R43; 05 R91 to R93). -/

namespace Sys2Proof.Machine

/-! ### JOB_ARM -/

theorem jobArm_refused {x : Port} {id : Byte} {s : State} {st : Status}
    (h : ownedJob x id s = .error st) :
    jobArm x [id] s = some { state := s, status := st, data := [id, 0, 0] } := by
  simp only [jobArm, h]
  rfl

/-- JOB_ARM on a job of the session (02 R32). -/
theorem jobArm_own {x : Port} {j : JobId} {b : Job} {s : State} (h : s.job j = some b)
    (ho : b.owner = x) : jobArm x [idByte j] s = some
      (if b.state = .armed then { state := s, status := .wrongState, data := [idByte j, 0, 0] }
      else if b.par.stride = 0 then { state := s, status := .badArg, data := [idByte j, 0, 0] }
      else
        { state := s.putJob j (some { b with
            state := if b.state = .defined then .armed else b.state
            armed := true
            countdown := b.par.firstCountdown })
          status := .ok
          data := idByte j :: leBytes 2 b.par.firstCountdown }) := by
  simp only [jobArm, ownedJob_own h ho]
  rfl

/-- Settles O25: the checks of JOB_ARM one after another, and the job armed. -/
theorem jobArmLoadsTheCountdown : Obligations.JobArmLoadsTheCountdown := by
  intro s x q id rest h refused
  have refuse : ∀ st, ownedJob x id s = .error st → refused st := fun st hst =>
    congrArg Host.Outcome.next (runCommand_answered h (jobArm_refused (s := takeCommand x rest s) hst))
  refine ⟨fun hid => refuse _ (ownedJob_noId x s hid), ?_⟩
  rintro j rfl
  refine ⟨fun hj => refuse _ (ownedJob_empty x hj), fun b hj => ⟨fun ho => refuse _ (ownedJob_foreign hj ho),
    fun ho => ?_⟩⟩
  have hact := jobArm_own (s := takeCommand x rest s) hj ho
  refine ⟨fun ha => ?_, fun ha hstride => ?_, fun ha hstride => ?_⟩
  · rw [if_pos ha] at hact
    exact congrArg Host.Outcome.next (runCommand_answered h hact)
  · rw [if_neg ha, if_pos hstride] at hact
    exact congrArg Host.Outcome.next (runCommand_answered h hact)
  · rw [if_neg ha, if_neg hstride, putJob_takeCommand] at hact
    exact congrArg Host.Outcome.next (runCommand_answered h hact)

/-! ### JOB_START -/

theorem jobStart_refused {x : Port} {id : Byte} {s : State} {st : Status}
    (h : ownedJob x id s = .error st) :
    jobStart x [id] s = some { state := s, status := st, data := id :: zeros 12 } := by
  simp only [jobStart, h]

/-- JOB_START on a job of the session that names an ACTIVE ring (02 R38). -/
theorem jobStart_own {x : Port} {j : JobId} {b : Job} {s : State} (h : s.job j = some b)
    (ho : b.owner = x) : jobStart x [idByte j] s = some
      (if b.state ≠ .defined ∧ b.state ≠ .armed then
        { state := s, status := .wrongState, data := idByte j :: zeros 12 }
      else if fillOf b.ring s < b.par.length then
        { state := s, status := .notFilled, data := idByte j :: zeros 12 }
      else
        { state := fire j b (headOf b.ring s) true s
          status := .ok
          data := idByte j :: leBytes 6 (headOf b.ring s - b.par.length) ++ leBytes 6 (headOf b.ring s) }) := by
  simp only [jobStart, ownedJob_own h ho]

/-- Settles O26: the checks of JOB_START one after another, and the job fired. -/
theorem jobStartFiresOnTheNewestSamples : Obligations.JobStartFiresOnTheNewestSamples := by
  intro s x q id rest h refused
  have refuse : ∀ st, ownedJob x id s = .error st → refused st := fun st hst =>
    congrArg Host.Outcome.next (runCommand_answered h (jobStart_refused (s := takeCommand x rest s) hst))
  refine ⟨fun hid => refuse _ (ownedJob_noId x s hid), ?_⟩
  rintro j rfl
  refine ⟨fun hj => refuse _ (ownedJob_empty x hj), fun b hj => ⟨fun ho => refuse _ (ownedJob_foreign hj ho),
    fun ho => ?_⟩⟩
  have hact := jobStart_own (s := takeCommand x rest s) hj ho
  refine ⟨fun hd ha => ?_, fun g hs hg => ?_⟩
  · rw [if_pos ⟨hd, ha⟩] at hact
    exact congrArg Host.Outcome.next (runCommand_answered h hact)
  have hs' : ¬ (b.state ≠ .defined ∧ b.state ≠ .armed) := fun hn => hs.elim hn.1 hn.2
  rw [if_neg hs', headOf_eq (s := takeCommand x rest s) hg, fillOf_eq (s := takeCommand x rest s) hg] at hact
  refine ⟨fun hf => ?_, fun hf => ?_⟩
  · rw [if_pos hf] at hact
    exact congrArg Host.Outcome.next (runCommand_answered h hact)
  · rw [if_neg (Nat.not_lt.mpr hf), fire_takeCommand] at hact
    exact congrArg Host.Outcome.next (runCommand_answered h hact)

/-! ### JOB_CANCEL -/

theorem jobCancel_refused {x : Port} {id : Byte} {s : State} {st : Status}
    (h : ownedJob x id s = .error st) :
    jobCancel x [id] s = some { state := s, status := st, data := [id, 0] } := by
  simp only [jobCancel, h]
  rfl

theorem jobCancel_own {x : Port} {j : JobId} {b : Job} {s : State} (h : s.job j = some b)
    (ho : b.owner = x) : jobCancel x [idByte j] s = some
      { state := (abandon j b s).putJob j (some b.cancelled)
        status := .ok
        data := [idByte j, b.cancelled.state.code] } := by
  simp only [jobCancel, ownedJob_own h ho]

/-- A HELD job stays HELD (02 R43). -/
theorem Job.cancelled_held {b : Job} {r : Record} (h : b.state = .held r) :
    b.cancelled = { b with armed := false, countdown := 0 } := by simp [Job.cancelled, h]

/-- Any other job becomes DEFINED (02 R41, R42). -/
theorem Job.cancelled_defined {b : Job} (h : ∀ r, b.state ≠ .held r) :
    b.cancelled = { b with state := .defined, armed := false, countdown := 0 } := by
  unfold Job.cancelled
  cases hs : b.state with
  | held r => exact absurd hs (h r)
  | _ => rfl

/-- A fire that waits leaves the ready queue (03 R66). -/
theorem abandon_waiting {j : JobId} {b : Job} (s : State) (h : b.state.waits = true) : abandon j b s =
    s.putClass b.par.priority ((s.cls b.par.priority).filter fun k => k ≠ j) := by
  unfold abandon
  cases hs : b.state with
  | ready | parked p => rfl
  | _ => simp [hs, JobState.waits] at h

/-- A fire that runs leaves the PSU (03 R66). -/
theorem abandon_running {j : JobId} {b : Job} (s : State) (h : b.state = .running) :
    abandon j b s = { s with psu := none } := by simp only [abandon, h]

/-- A job without a fire in progress has nothing to abandon (03 R66). -/
theorem abandon_idle {j : JobId} {b : Job} (s : State) (h : b.state.pins = false) : abandon j b s = s := by
  unfold abandon
  cases hs : b.state with
  | defined | armed | held r => rfl
  | _ => simp [hs, JobState.pins] at h

/-- Settles O27: the checks of JOB_CANCEL one after another, and the fire ended by `abandon` in each state. -/
theorem jobCancelEndsTheFire : Obligations.JobCancelEndsTheFire := by
  intro s x q id rest h refused
  have refuse : ∀ st, ownedJob x id s = .error st → refused st := fun st hst =>
    congrArg Host.Outcome.next (runCommand_answered h (jobCancel_refused (s := takeCommand x rest s) hst))
  refine ⟨fun hid => refuse _ (ownedJob_noId x s hid), ?_⟩
  rintro j rfl
  refine ⟨fun hj => refuse _ (ownedJob_empty x hj), fun b hj => ⟨fun ho => refuse _ (ownedJob_foreign hj ho),
    fun ho => ?_⟩⟩
  have hact := jobCancel_own (s := takeCommand x rest s) hj ho
  rw [abandon_takeCommand, putJob_takeCommand] at hact
  have hexec : exec (.jobCancel x) s = .next (answered x q .ok 0x43 [idByte j, b.cancelled.state.code] rest
      ((abandon j b s).putJob j (some b.cancelled))) :=
    congrArg Host.Outcome.next (runCommand_answered h hact)
  have hdefined : (∀ r, b.state ≠ .held r) →
      exec (.jobCancel x) s = .next (answered x q .ok 0x43 [idByte j, 0x01] rest ((abandon j b s).putJob j
        (some { b with state := .defined, armed := false, countdown := 0 }))) := fun hs => by
    rw [Job.cancelled_defined hs] at hexec
    exact hexec
  refine ⟨fun hs => ?idle, fun hs => ?waiting, fun hs => ?running, fun r hs => ?held⟩
  case idle =>
    rw [abandon_idle s (by rcases hs with hs | hs <;> rw [hs] <;> rfl)] at hdefined
    exact hdefined fun r hr => by rcases hs with hs | hs <;> rw [hs] at hr <;> cases hr
  case waiting =>
    rw [abandon_waiting s (by rcases hs with hs | ⟨p, hs⟩ <;> rw [hs] <;> rfl)] at hdefined
    exact hdefined fun r hr => by rcases hs with hs | ⟨p, hs⟩ <;> rw [hs] at hr <;> cases hr
  case running =>
    rw [abandon_running s hs] at hdefined
    exact hdefined fun r hr => by rw [hs] at hr; cases hr
  case held =>
    have hcode : b.cancelled.state.code = 0x06 := by
      rw [Job.cancelled_held hs]
      simp only [hs, JobState.code]
    rw [hcode, Job.cancelled_held hs, abandon_idle s (by rw [hs]; rfl)] at hexec
    exact hexec

/-! ### JOB_WATCH -/

theorem jobWatch_refused {x : Port} {id action a0 a1 a2 a3 b0 b1 b2 b3 : Byte} {s : State} {st : Status}
    (h : ownedJob x id s = .error st) :
    jobWatch x [id, action, a0, a1, a2, a3, b0, b1, b2, b3] s =
      some { state := s, status := st, data := [id, 0, 0] } := by
  simp only [jobWatch, h]
  rfl

/-- JOB_WATCH on a job of the session (05 R91 to R93). -/
theorem jobWatch_own {x : Port} {j : JobId} {b : Job} {s : State} (action a0 a1 a2 a3 b0 b1 b2 b3 : Byte)
    (h : s.job j = some b) (ho : b.owner = x) :
    jobWatch x [idByte j, action, a0, a1, a2, a3, b0, b1, b2, b3] s = some
      (if action = 0x00 then
        { state := putWatch x j b none s
          status := .ok
          data := [idByte j, 0x00, flagByte ((s.session x).pendingList.any (Entry.isAlertOf j))] }
      else if action ≠ 0x01 then { state := s, status := .badArg, data := [idByte j, 0, 0] }
      else if intOf32 [b0, b1, b2, b3] ≤ intOf32 [a0, a1, a2, a3] then
        { state := s, status := .badArg, data := [idByte j, 0, 0] }
      else
        { state := putWatch x j b
            (some (Watch.fresh (intOf32 [a0, a1, a2, a3]) (intOf32 [b0, b1, b2, b3]))) s
          status := .ok
          data := [idByte j, 0x01, flagByte ((s.session x).pendingList.any (Entry.isAlertOf j))] }) := by
  simp only [jobWatch, ownedJob_own h ho]
  rfl

/-- Settles O29: the checks of JOB_WATCH one after another, and the watch put or cleared. -/
theorem jobWatchSetsAndClears : Obligations.JobWatchSetsAndClears := by
  intro s x q id action a0 a1 a2 a3 b0 b1 b2 b3 rest h low high refused
  have refuse : ∀ st, ownedJob x id s = .error st → refused st := fun st hst =>
    congrArg Host.Outcome.next (runCommand_answered h (jobWatch_refused (s := takeCommand x rest s) hst))
  refine ⟨fun hid => refuse _ (ownedJob_noId x s hid), ?_⟩
  rintro j rfl
  refine ⟨fun hj => refuse _ (ownedJob_empty x hj), fun b hj => ⟨fun ho => refuse _ (ownedJob_foreign hj ho),
    fun ho => ?_⟩⟩
  have hact := jobWatch_own (s := takeCommand x rest s) action a0 a1 a2 a3 b0 b1 b2 b3 hj ho
  rw [pendingList_takeCommand, putWatch_takeCommand, putWatch_takeCommand] at hact
  refine ⟨fun h0 => ?clear, fun h1 hlt => ?set, fun h1 hle => ?noBand, fun h0 h1 => ?noAction⟩
  case clear =>
    subst h0
    rw [if_pos rfl] at hact
    exact congrArg Host.Outcome.next (runCommand_answered h hact)
  case set =>
    subst h1
    rw [if_neg (by decide), if_neg (not_not.mpr rfl), if_neg (Int.not_le.mpr hlt)] at hact
    exact congrArg Host.Outcome.next (runCommand_answered h hact)
  case noBand =>
    subst h1
    rw [if_neg (by decide), if_neg (not_not.mpr rfl), if_pos hle] at hact
    exact congrArg Host.Outcome.next (runCommand_answered h hact)
  case noAction =>
    rw [if_neg h0, if_pos h1] at hact
    exact congrArg Host.Outcome.next (runCommand_answered h hact)

end Sys2Proof.Machine
end

section
/-! SUPPORT. JOB_DELETE (02 R27, R44, R45; 04 R77, R78, R81, R84). -/

namespace Sys2Proof.Machine

/-- The end of a fire, state by state (02 R45 step 1, 03 R66, 04 R77). -/
theorem endFire_eq (j : JobId) (b : Job) (s : State) : endFire j b s = match b.state with
    | .ready | .parked _ => s.putClass b.par.priority ((s.cls b.par.priority).filter fun k => k ≠ j)
    | .running => { s with psu := none }
    | .held _ => s.modSession b.owner fun z => { z with heldOrder := z.heldOrder.filter fun k => k ≠ j }
    | .defined | .armed => s := by
  unfold endFire
  cases hs : b.state with
  | held r => rfl
  | _ => simp only [abandon, hs] <;> rfl

theorem results_endFire (j : JobId) (b : Job) (s : State) (y : Port) :
    ((endFire j b s).session y).results = (s.session y).results := by
  unfold endFire
  split
  · rw [State.session_modSession]
    split
    · rename_i hy
      rw [hy]
    · rfl
  · unfold abandon
    cases b.state <;> rfl

/-- The purge count is what the queue loses (04 R81). -/
theorem purgeCount_eq (j : JobId) (l : List Record) :
    purgeCount j l = l.length - (l.filter fun r => r.job ≠ j).length := by
  have h := List.length_eq_length_filter_add (l := l) fun r : Record => decide (r.job = j)
  have hn : (l.filter fun r => !decide (r.job = j)) = l.filter fun r => r.job ≠ j :=
    List.filter_congr fun r _ => by simp
  rw [hn] at h
  unfold purgeCount
  omega

/-- The state of a purge before its RESULTS check: the records are gone, and held ones have moved in when any
went (04 R81). -/
def purged (x : Port) (j : JobId) (s : State) : State :=
  let kept := (s.session x).results.filter fun r => r.job ≠ j
  let s1 := s.modSession x fun z => { z with results := kept }
  if (s.session x).results.length - kept.length = 0 then s1 else heldMove x s1

theorem purge_eq (x : Port) (j : JobId) (s : State) :
    purge x j s = resultsCheck x (s.session x).results (purged x j s) := by
  simp only [purge, purged, ← purgeCount_eq, Nat.pos_iff_ne_zero, ne_eq, ite_not]

/-- A queue that was empty stays empty in a purge: nothing is removed, so nothing moves in (04 R81). -/
theorem results_purged_of_empty {x : Port} {j : JobId} {s : State} (h : (s.session x).results = []) :
    ((purged x j s).session x).results = [] := by
  simp [purged, h]

/-- A change that leaves a session's record leaves the state. -/
theorem modSession_same {s : State} {x : Port} {f : Session → Session}
    (h : f (s.session x) = s.session x) : s.modSession x f = s := by
  rw [State.modSession, State.putSession, h, State.session, Pair.put_look]

/-- The RESULTS check of a purge only ever withdraws (04 R84). -/
theorem purge_withdraws (x : Port) (j : JobId) (s : State) : purge x j s =
    (purged x j s).modSession x fun z => { z with
      pendingList := z.pendingList.filter fun e => !(z.results.isEmpty && e.isResults) } := by
  rw [purge_eq, resultsCheck_eq]
  split
  · rename_i he
    simp [State.modSession, he, withdrawResults]
  · rename_i he
    have hcreates : ¬ ((s.session x).results.isEmpty = true ∧
        ((purged x j s).session x).resultsNotify = true ∧
        ¬ ((purged x j s).session x).pendingList.any Entry.isResults = true) := fun hn =>
      he (by rw [results_purged_of_empty (List.isEmpty_iff.mp hn.1)]; rfl)
    rw [if_neg hcreates, modSession_same (by simp [he])]

/-- The deletion of a job: the pending entries that go, and what goes before and after them (02 R45). -/
theorem deleteJob_eq {j : JobId} {b : Job} {s : State} (h : s.job j = some b) : deleteJob j s =
    (unrefSet b.set (unrefRing b.ring ((purged b.owner j (endFire j b s)).modSession b.owner fun z =>
      { z with pendingList := z.pendingList.filter fun e =>
          !(e.names j) && !(z.results.isEmpty && e.isResults) }))).putJob j none := by
  simp only [deleteJob, h, purge_withdraws, modSession_modSession, withdrawJob, List.filter_filter]

theorem jobDelete_refused {x : Port} {id : Byte} {s : State} {st : Status}
    (h : ownedJob x id s = .error st) :
    jobDelete x [id] s = some { state := s, status := st, data := [id, 0] } := by
  simp only [jobDelete, h]
  rfl

theorem jobDelete_own {x : Port} {j : JobId} {b : Job} {s : State} (h : s.job j = some b)
    (ho : b.owner = x) : jobDelete x [idByte j] s = some
      { state := deleteJob j s
        status := .ok
        data := [idByte j, BitVec.ofNat 8 (purgeCount j (s.session x).results)] } := by
  simp only [jobDelete, ownedJob_own h ho, ho]

/-- Settles O28: the checks of JOB_DELETE one after another, and the deletion by `deleteJob_eq`. -/
theorem jobDeleteRemovesTheJob : Obligations.JobDeleteRemovesTheJob := by
  refine ⟨fun s x q j b rest h hj ho => ?deleted, fun s x q id rest h => ?refused⟩
  case refused =>
    have refuse : ∀ st, ownedJob x id s = .error st →
        exec (.jobDelete x) s = .next (answered x q st 0x44 [id, 0] rest s) := fun st hst =>
      congrArg Host.Outcome.next (runCommand_answered h (jobDelete_refused (s := takeCommand x rest s) hst))
    refine ⟨fun hid => refuse _ (ownedJob_noId x s hid), ?_⟩
    rintro j rfl
    exact ⟨fun hj => refuse _ (ownedJob_empty x hj), fun b hj ho => refuse _ (ownedJob_foreign hj ho)⟩
  case deleted =>
    subst ho
    have hact := jobDelete_own (s := takeCommand b.owner rest s) hj rfl
    rw [results_takeCommand, deleteJob_takeCommand, deleteJob_eq hj] at hact
    refine (congrArg Host.Outcome.next (runCommand_answered h hact)).trans ?_
    simp only [purged, results_endFire, purgeCount_eq]
    rw [endFire_eq] <;> rfl

end Sys2Proof.Machine
end

section
/-! SUPPORT. JOB_DEFINE: its ten checks in order, the new job and the redefined one (02 R28 to R31). -/

namespace Sys2Proof.Machine

/-! ### The checks -/

theorem defineRing_noId {id : Byte} (s : State) (h : 8 ≤ id.toNat) :
    defineRing id s = .error .notFound := by simp [defineRing, ringId?_eq_none h]

theorem defineRing_absent {r : RingId} {s : State} (h : s.ring r = none) :
    defineRing (idByte r) s = .error .notFound := by simp [defineRing, h]

theorem defineRing_active {r : RingId} {g : Ring} {s : State} (h : s.ring r = some g) :
    defineRing (idByte r) s = if g.orphaned = true then .error .orphaned else .ok (r, g) := by
  simp [defineRing, h]

theorem defineSet_noId {id : Byte} (s : State) (h : 16 ≤ id.toNat) :
    defineSet id s = .error .notFound := by simp [defineSet, setId?_eq_none h]

theorem defineSet_empty {c : SetId} {s : State} (h : s.coef c = none) :
    defineSet (idByte c) s = .error .notFound := by simp [defineSet, h]

theorem defineSet_loading {c : SetId} {v : CoefSet} {s : State} (h : s.coef c = some v)
    (hp : v.phase = .loading) : defineSet (idByte c) s = .error .notReady := by simp [defineSet, h, hp]

theorem defineSet_ready {c : SetId} {v : CoefSet} {s : State} (h : s.coef c = some v)
    (hp : v.phase ≠ .loading) :
    defineSet (idByte c) s = if v.isOrphaned = true then .error .orphaned else .ok (c, v) := by
  cases hph : v.phase with
  | loading => exact absurd hph hp
  | ready o crc => simp [defineSet, h, hph, CoefSet.isOrphaned]

/-- Check 10: a priority above 3, a mode that is none, or a shift too large (02 R28). -/
theorem params?_eq_none {a : DefineArgs} (h : 3 < a.priority.toNat ∨
    (a.mode ≠ RunMode.whole.code ∧ a.mode ≠ RunMode.segmented.code) ∨ 16 < a.presetShift ∨
      31 < a.outputShift) : a.params? = none := by
  unfold DefineArgs.params?
  rcases h with h | ⟨hw, hs⟩ | h
  · have : ¬ a.priority.toNat < 4 := by omega
    simp [priority?, this]
  · have hmode : runMode? a.mode = none := by
      have hw' : a.mode ≠ 0x00 := hw
      have hs' : a.mode ≠ 0x01 := hs
      rw [runMode?, if_neg hw', if_neg hs']
    rw [hmode]
    cases priority? a.priority <;> rfl
  · have : ¬ (a.presetShift ≤ 16 ∧ a.outputShift ≤ 31) := by omega
    split
    · rw [if_neg this]
    · rfl

section
variable {a : DefineArgs} {s : State} {r : RingId} {g : Ring} {c : SetId} {v : CoefSet}

/-- Checks 4 and 5 (02 R28). -/
theorem defineChecks_ring {st : Status} (hr : defineRing a.ring s = .error st) :
    defineChecks a s = .error st := by simp only [defineChecks, hr]

/-- Checks 6 to 8 (02 R28). -/
theorem defineChecks_set {st : Status} (hr : defineRing a.ring s = .ok (r, g))
    (hs : defineSet a.set s = .error st) : defineChecks a s = .error st := by
  simp only [defineChecks, hr, hs]

/-- Checks 9 and 10 (02 R28). -/
theorem defineChecks_params (hr : defineRing a.ring s = .ok (r, g)) (hs : defineSet a.set s = .ok (c, v)) :
    defineChecks a s =
      if a.length = 0 ∨ Config.maxLength < a.length ∨ g.capacity < a.length ∨ v.length < a.length then
        .error .badArg
      else a.params?.elim (.error .badArg) fun par => .ok (r, c, par) := by
  simp only [defineChecks, hr, hs]
  cases a.params? <;> rfl

end

/-! ### JOB_DEFINE at the job table -/

/-- The arguments of JOB_DEFINE after the job id, read from their bytes (11 Table 11-3). -/
def defineArgs (ring set l0 l1 t0 t1 h0 h1 pr mode p0 p1 p2 p3 psh osh : Byte) : DefineArgs :=
  { ring := ring, set := set, length := l0.toNat + 256 * l1.toNat, stride := t0.toNat + 256 * t1.toNat,
    phase := h0.toNat + 256 * h1.toNat, priority := pr, mode := mode, preset := intOf32 [p0, p1, p2, p3],
    presetShift := psh.toNat, outputShift := osh.toNat }

section
variable {x : Port} {ring set l0 l1 t0 t1 h0 h1 pr mode p0 p1 p2 p3 psh osh : Byte} {s : State}

/-- A job id above 31 (02 R28 check 1). -/
theorem jobDefine_noId {id : Byte} (h : 32 ≤ id.toNat) :
    jobDefine x [id, ring, set, l0, l1, t0, t1, h0, h1, pr, mode, p0, p1, p2, p3, psh, osh] s =
      some { state := s, status := .badArg, data := [id] } := by
  simp only [jobDefine, jobId?_eq_none h]

/-- A record that the session may not define (02 R28 checks 2 and 3). -/
theorem jobDefine_notOwn {j : JobId} {st : Status} (h : defineOwner x (s.job j) = some st) :
    jobDefine x [idByte j, ring, set, l0, l1, t0, t1, h0, h1, pr, mode, p0, p1, p2, p3, psh, osh] s =
      some { state := s, status := st, data := [idByte j] } := by
  simp only [jobDefine, jobId?_idByte, h]

/-- Arguments that do not pass (02 R28 checks 4 to 10). -/
theorem jobDefine_badArgs {j : JobId} {st : Status} (h : defineOwner x (s.job j) = none)
    (hc : defineChecks (defineArgs ring set l0 l1 t0 t1 h0 h1 pr mode p0 p1 p2 p3 psh osh) s = .error st) :
    jobDefine x [idByte j, ring, set, l0, l1, t0, t1, h0, h1, pr, mode, p0, p1, p2, p3, psh, osh] s =
      some { state := s, status := st, data := [idByte j] } := by
  simp only [defineArgs] at hc
  simp only [jobDefine, jobId?_idByte, h, leNat_pair, hc]

/-- An EMPTY record is defined (02 R29). -/
theorem jobDefine_new {j : JobId} {r : RingId} {c : SetId} {par : Params} (hj : s.job j = none)
    (hc : defineChecks (defineArgs ring set l0 l1 t0 t1 h0 h1 pr mode p0 p1 p2 p3 psh osh) s =
      .ok (r, c, par)) :
    jobDefine x [idByte j, ring, set, l0, l1, t0, t1, h0, h1, pr, mode, p0, p1, p2, p3, psh, osh] s =
      some { state := defineNew x j r c par s, status := .ok, data := [idByte j] } := by
  simp only [defineArgs] at hc
  simp only [jobDefine, jobId?_idByte, hj, defineOwner, leNat_pair, hc]

/-- A DEFINED job of the session is redefined (02 R30). -/
theorem jobDefine_again {j : JobId} {b : Job} {r : RingId} {c : SetId} {par : Params}
    (hj : s.job j = some b) (ho : b.owner = x) (hb : b.state = .defined)
    (hc : defineChecks (defineArgs ring set l0 l1 t0 t1 h0 h1 pr mode p0 p1 p2 p3 psh osh) s =
      .ok (r, c, par)) :
    jobDefine x [idByte j, ring, set, l0, l1, t0, t1, h0, h1, pr, mode, p0, p1, p2, p3, psh, osh] s =
      some { state := redefine x j b r c par s, status := .ok, data := [idByte j] } := by
  simp only [defineArgs] at hc
  simp [jobDefine, hj, defineOwner, ho, hb, leNat_pair, hc]

end

/-! ### The refusals -/

/-- Settles O24: the owner's checks by `defineOwner`, those on the arguments by `defineChecks`. -/
theorem jobDefineRefusesInOrder : Obligations.JobDefineRefusesInOrder := by
  intro s x q id ring set args rest h hlen
  obtain ⟨l0, l1, t0, t1, h0, h1, pr, mode, p0, p1, p2, p3, psh, osh, rfl⟩ :
      ∃ l0 l1 t0 t1 h0 h1 pr mode p0 p1 p2 p3 psh osh : Byte,
        args = [l0, l1, t0, t1, h0, h1, pr, mode, p0, p1, p2, p3, psh, osh] := by
    match args, hlen with
    | [l0, l1, t0, t1, h0, h1, pr, mode, p0, p1, p2, p3, psh, osh], _ =>
      exact ⟨l0, l1, t0, t1, h0, h1, pr, mode, p0, p1, p2, p3, psh, osh, rfl⟩
  intro refused
  refine ⟨fun hid => congrArg Host.Outcome.next (runCommand_answered h (jobDefine_noId hid)), ?_⟩
  rintro j rfl
  have notOwn : ∀ st, defineOwner x (s.job j) = some st → refused st := fun st hst =>
    congrArg Host.Outcome.next (runCommand_answered h (jobDefine_notOwn (s := takeCommand x rest s) hst))
  refine ⟨fun b hj ho => notOwn _ (by simp [defineOwner, hj, ho]),
    fun b hj ho hb => notOwn _ (by simp [defineOwner, hj, ho, hb]), fun hown => ?_⟩
  have hdefinable : defineOwner x (s.job j) = none := by
    cases hj : s.job j with
    | none => rfl
    | some b => simp [defineOwner, hown b hj]
  have badArgs : ∀ st,
      defineChecks (defineArgs ring set l0 l1 t0 t1 h0 h1 pr mode p0 p1 p2 p3 psh osh) s = .error st →
        refused st := fun st hst =>
    congrArg Host.Outcome.next
      (runCommand_answered h (jobDefine_badArgs (s := takeCommand x rest s) hdefinable hst))
  refine ⟨fun hr => badArgs _ (defineChecks_ring (defineRing_noId s hr)), ?_⟩
  rintro r rfl
  refine ⟨fun hr => badArgs _ (defineChecks_ring (defineRing_absent hr)), fun g hg => ?_⟩
  have hring := defineRing_active hg
  refine ⟨fun ho => badArgs _ (defineChecks_ring (hring.trans (if_pos ho))), fun ho => ?_⟩
  rw [if_neg (by simp [ho])] at hring
  refine ⟨fun hc => badArgs _ (defineChecks_set hring (defineSet_noId s hc)), ?_⟩
  rintro c rfl
  refine ⟨fun hc => badArgs _ (defineChecks_set hring (defineSet_empty hc)), fun v hv =>
    ⟨fun hp => badArgs _ (defineChecks_set hring (defineSet_loading hv hp)), fun hov => ?_, ?_⟩⟩
  · have hp : v.phase ≠ .loading := fun hp => by simp [CoefSet.isOrphaned, hp] at hov
    exact badArgs _ (defineChecks_set hring ((defineSet_ready hv hp).trans (if_pos hov)))
  intro l0' l1' t0' t1' h0' h1' pr' mode' p0' p1' p2' p3' psh' osh' hargs hp hov length
  cases hargs
  have hset := (defineSet_ready hv hp).trans (if_neg (by simp [hov]))
  have hparams := defineChecks_params
    (a := defineArgs (idByte r) (idByte c) l0 l1 t0 t1 h0 h1 pr mode p0 p1 p2 p3 psh osh) hring hset
  refine ⟨fun hlength => badArgs _ (hparams.trans (if_pos hlength)), fun _ _ _ _ h10 => badArgs _ ?_⟩
  rw [hparams, params?_eq_none h10]
  exact ite_self _

/-! ### The definition -/

/-- The parameters that pass check 10 (02 R28). -/
theorem params?_defineArgs (ring set l0 l1 t0 t1 h0 h1 p0 p1 p2 p3 psh osh : Byte) (pr : ClassId)
    (mode : RunMode) (hp : psh.toNat ≤ 16) (ho : osh.toNat ≤ 31) :
    (defineArgs ring set l0 l1 t0 t1 h0 h1 (idByte pr) mode.code p0 p1 p2 p3 psh osh).params? = some
      { length := l0.toNat + 256 * l1.toNat, stride := t0.toNat + 256 * t1.toNat,
        phase := h0.toNat + 256 * h1.toNat, priority := pr, mode := mode,
        preset := intOf32 [p0, p1, p2, p3], presetShift := psh.toNat, outputShift := osh.toNat } := by
  simp [DefineArgs.params?, defineArgs, hp, ho]

/-- Arguments that pass every check (02 R28). -/
theorem defineChecks_passed {s : State} {r : RingId} {c : SetId} {g : Ring} {v : CoefSet} {crc : Word16}
    {l0 l1 psh osh : Byte} (t0 t1 h0 h1 p0 p1 p2 p3 : Byte) (pr : ClassId) (mode : RunMode)
    (hg : s.ring r = some g) (ho : g.orphaned = false) (hv : s.coef c = some v)
    (hp : v.phase = .ready false crc) (h1' : 1 ≤ l0.toNat + 256 * l1.toNat)
    (hmax : l0.toNat + 256 * l1.toNat ≤ 4096) (hcap : l0.toNat + 256 * l1.toNat ≤ g.capacity)
    (hlen : l0.toNat + 256 * l1.toNat ≤ v.length) (hpsh : psh.toNat ≤ 16) (hosh : osh.toNat ≤ 31) :
    defineChecks (defineArgs (idByte r) (idByte c) l0 l1 t0 t1 h0 h1 (idByte pr) mode.code p0 p1 p2 p3
      psh osh) s = .ok (r, c,
        { length := l0.toNat + 256 * l1.toNat, stride := t0.toNat + 256 * t1.toNat,
          phase := h0.toNat + 256 * h1.toNat, priority := pr, mode := mode,
          preset := intOf32 [p0, p1, p2, p3], presetShift := psh.toNat, outputShift := osh.toNat }) := by
  have hring : defineRing (idByte r) s = .ok (r, g) := (defineRing_active hg).trans (if_neg (by simp [ho]))
  have hset : defineSet (idByte c) s = .ok (c, v) :=
    (defineSet_ready hv (by simp [hp])).trans (if_neg (by simp [CoefSet.isOrphaned, hp]))
  have hlength : ¬ (l0.toNat + 256 * l1.toNat = 0 ∨ 4096 < l0.toNat + 256 * l1.toNat ∨
      g.capacity < l0.toNat + 256 * l1.toNat ∨ v.length < l0.toNat + 256 * l1.toNat) := by omega
  rw [defineChecks_params (a := defineArgs (idByte r) (idByte c) l0 l1 t0 t1 h0 h1 (idByte pr) mode.code
    p0 p1 p2 p3 psh osh) hring hset, params?_defineArgs _ _ l0 l1 t0 t1 h0 h1 p0 p1 p2 p3 psh osh pr mode
    hpsh hosh]
  exact if_neg hlength

theorem defineNew_takeCommand (x y : Port) (l : List Command) (j : JobId) (r : RingId) (c : SetId)
    (par : Params) (s : State) :
    defineNew y j r c par (takeCommand x l s) = takeCommand x l (defineNew y j r c par s) := by
  simp only [defineNew, refRing_takeCommand, refSet_takeCommand, putJob_takeCommand]

theorem redefine_takeCommand (x y : Port) (l : List Command) (j : JobId) (b : Job) (r : RingId) (c : SetId)
    (par : Params) (s : State) :
    redefine y j b r c par (takeCommand x l s) = takeCommand x l (redefine y j b r c par s) := by
  simp only [redefine, refRing_takeCommand, unrefRing_takeCommand, refSet_takeCommand,
    unrefSet_takeCommand, putJob_takeCommand]
  exact modSession_takeCommand x y l (fun _ _ => rfl) _

/-- Settles O23: every check passes by `defineChecks_passed`, and the record is that of `Job.fresh`. -/
theorem jobDefineDefinesAndRedefines : Obligations.JobDefineDefinesAndRedefines := by
  refine ⟨?new, ?again⟩
  case new =>
    intro s x q l0 l1 t0 t1 h0 h1 p0 p1 p2 p3 psh osh j r c pr mode g v crc rest h length hj hg ho hv hp hmin
      hmax hcap hlen hpsh hosh
    have hc := defineChecks_passed (s := takeCommand x rest s) t0 t1 h0 h1 p0 p1 p2 p3 pr mode hg ho hv hp
      hmin hmax hcap hlen hpsh hosh
    have hact := jobDefine_new (x := x) (s := takeCommand x rest s) hj hc
    rw [defineNew_takeCommand] at hact
    refine congrArg Host.Outcome.next ((runCommand_answered h hact).trans ?_)
    rw [defineNew, refRing_eq hg, refSet_eq (s := s.putRing r _) hv]
    rfl
  case again =>
    intro s x q l0 l1 t0 t1 h0 h1 p0 p1 p2 p3 psh osh j b r c pr mode g v crc rest h length hj hown hb hg ho hv
      hp hmin hmax hcap hlen hpsh hosh
    have hc := defineChecks_passed (s := takeCommand x rest s) t0 t1 h0 h1 p0 p1 p2 p3 pr mode hg ho hv hp
      hmin hmax hcap hlen hpsh hosh
    have hact := jobDefine_again (x := x) (s := takeCommand x rest s) hj hown hb hc
    rw [redefine_takeCommand] at hact
    exact congrArg Host.Outcome.next (runCommand_answered h hact)

end Sys2Proof.Machine
end

section
/-! SUPPORT. The law of the ready queue and the PSU in terms of where each job stands, and what a change of
one job's standing must do to the queue and the PSU to keep it (03 R53 to R56). -/

namespace Sys2Proof.Machine

/-! ### Where a job stands -/

/-- The part that a job has in the ready queue and the PSU (03 R53, R54). -/
inductive Stand where
  | ready
  | parked
  | running
deriving DecidableEq

/-- The part that goes with a state; DEFINED, ARMED and HELD jobs have none. -/
def JobState.stand : JobState → Option Stand
  | .ready => some .ready
  | .parked _ => some .parked
  | .running => some .running
  | .defined | .armed | .held _ => none

/-- A job's part, with the class of its priority. -/
def Job.stand (b : Job) : Option (Stand × ClassId) := b.state.stand.map fun t => (t, b.par.priority)

/-- The part and class of the job with an id; an EMPTY record has none. -/
def standing (j : JobId) (s : State) : Option (Stand × ClassId) := (s.job j).bind Job.stand

theorem standing_of_job {s : State} {j : JobId} {b : Job} (hb : s.job j = some b) :
    standing j s = b.stand := by simp [standing, hb]

@[simp] theorem standing_putJob (s : State) (j k : JobId) (v : Option Job) :
    standing k (s.putJob j v) = if k = j then v.bind Job.stand else standing k s := by
  unfold standing
  rw [State.job_putJob]
  split <;> rfl

theorem Job.stand_eq_some {b : Job} {t : Stand} {c : ClassId} :
    b.stand = some (t, c) ↔ b.state.stand = some t ∧ b.par.priority = c := by
  simp [Job.stand]

theorem standing_eq_some {s : State} {j : JobId} {t : Stand} {c : ClassId} :
    standing j s = some (t, c) ↔ ∃ b, s.job j = some b ∧ b.state.stand = some t ∧ b.par.priority = c := by
  simp [standing, Option.bind_eq_some_iff, Job.stand_eq_some]

theorem JobState.stand_running {st : JobState} : st.stand = some .running ↔ st = .running := by
  cases st <;> simp [JobState.stand]

theorem JobState.stand_parked {st : JobState} : st.stand = some .parked ↔ ∃ p, st = .parked p := by
  cases st <;> simp [JobState.stand]

theorem JobState.waits_iff_stand {st : JobState} :
    st.waits = true ↔ st.stand = some .ready ∨ st.stand = some .parked := by
  cases st <;> simp [JobState.stand, JobState.waits]

/-- A job whose state has no part has none. -/
theorem Job.stand_eq_none {b : Job} (h : b.state.stand = none) : b.stand = none := by simp [Job.stand, h]

/-- A job at its return state has no part in the queue or the PSU. -/
@[simp] theorem Job.stand_returnState (b : Job) : b.returnState.stand = none := by
  unfold Job.returnState
  split <;> rfl

/-! ### The law -/

/-- The scheduler's law without its last clause, which the start step restores at the end of a happening
(03 R53 to R55). -/
structure QueueLaw (s : State) : Prop where
  nodup : ∀ c, (s.cls c).Nodup
  queued : ∀ c j, j ∈ s.cls c ↔ standing j s = some (.ready, c) ∨ standing j s = some (.parked, c)
  running : ∀ j, (∃ c, standing j s = some (.running, c)) ↔ ∃ run, s.psu = some run ∧ run.job = j
  parkedFirst : ∀ j c, standing j s = some (.parked, c) → (s.cls c).head? = some j
  runningAlone : ∀ j k c, standing j s = some (.running, c) → standing k s ≠ some (.parked, c)

theorem standing_waits {s : State} {j : JobId} {c : ClassId} :
    (standing j s = some (.ready, c) ∨ standing j s = some (.parked, c)) ↔
      ∃ b, s.job j = some b ∧ b.state.waits = true ∧ b.par.priority = c := by
  cases hb : s.job j with
  | none => simp [standing, hb]
  | some b => simp [standing_of_job hb, Job.stand_eq_some, JobState.waits_iff_stand, or_and_right]

theorem standing_running {s : State} {j : JobId} :
    (∃ c, standing j s = some (.running, c)) ↔ ∃ b, s.job j = some b ∧ b.state = .running := by
  cases hb : s.job j with
  | none => simp [standing, hb]
  | some b => simp [standing_of_job hb, Job.stand_eq_some, JobState.stand_running]

/-- The scheduler's law is the queue's law, and that nothing is left to start. -/
theorem schedulerLaw_iff (s : State) : SchedulerLaw s ↔ QueueLaw s ∧ SchedulerSettled s := by
  constructor
  · intro h
    refine ⟨⟨h.nodup, fun c j => (h.queued c j).trans standing_waits.symm,
      fun j => standing_running.trans (h.running j), fun j c hp => ?_, fun j k c hr hp => ?_⟩, h.settled⟩
    · obtain ⟨b, hb, hs, rfl⟩ := standing_eq_some.mp hp
      obtain ⟨p, hs⟩ := JobState.stand_parked.mp hs
      exact h.parkedFirst j b p hb hs
    · obtain ⟨b, hb, hs, rfl⟩ := standing_eq_some.mp hr
      obtain ⟨d, hd, ht, hc⟩ := standing_eq_some.mp hp
      obtain ⟨p, ht⟩ := JobState.stand_parked.mp ht
      exact h.runningAlone j b k d p hb (JobState.stand_running.mp hs) hd ht hc
  · rintro ⟨h, hset⟩
    have parked : ∀ {j b p}, s.job j = some b → b.state = .parked p →
        standing j s = some (.parked, b.par.priority) := fun hb hs =>
      standing_eq_some.mpr ⟨_, hb, JobState.stand_parked.mpr ⟨_, hs⟩, rfl⟩
    refine ⟨h.nodup, fun c j => (h.queued c j).trans standing_waits,
      fun j => standing_running.symm.trans (h.running j),
      fun j b p hb hs => h.parkedFirst j _ (parked hb hs), fun j b k d p hb hs hd ht hc => ?_, hset⟩
    have hrun : standing j s = some (.running, b.par.priority) :=
      standing_eq_some.mpr ⟨b, hb, JobState.stand_running.mpr hs, rfl⟩
    exact h.runningAlone j k _ hrun (hc ▸ parked hd ht)

/-- A job that stands in the queue is in the class of its priority alone. -/
theorem QueueLaw.class_unique {s : State} (h : QueueLaw s) {j : JobId} {t : Stand} {c d : ClassId}
    (hs : standing j s = some (t, c)) (hd : j ∈ s.cls d) : d = c := by
  rcases (h.queued d j).mp hd with hd | hd <;> rw [hs] at hd <;> cases hd <;> rfl

/-- While a job runs the PSU holds its run. -/
theorem QueueLaw.psu_of_running {s : State} (h : QueueLaw s) {j : JobId} {c : ClassId}
    (hs : standing j s = some (.running, c)) : ∃ run, s.psu = some run ∧ run.job = j :=
  (h.running j).mp ⟨c, hs⟩

/-- A job that had no part in the queue joins a class: the class holds it with those it held (03 R54). -/
theorem QueueLaw.mem_joined {s : State} (h : QueueLaw s) {j : JobId} {c : ClassId} {l : List JobId}
    {t : Stand} (hmem : ∀ d, j ∉ s.cls d) (hl : ∀ k, k ∈ l ↔ k = j ∨ k ∈ s.cls c)
    (ht : t = .ready ∨ t = .parked) {d : ClassId} {k : JobId} :
    k ∈ (if d = c then l else s.cls d) ↔
      (if k = j then some (t, c) else standing k s) = some (.ready, d) ∨
        (if k = j then some (t, c) else standing k s) = some (.parked, d) := by
  by_cases hk : k = j
  · subst hk
    by_cases hd : d = c
    · simpa [hd, hl] using ht
    · simp [hd, hmem, Ne.symm hd]
  · rw [if_neg hk, ← h.queued]
    split
    · rename_i hd
      rw [hl, hd]
      simp [hk]
    · rfl

/-- A job whose part becomes neither RUNNING nor PARKED disturbs no pair of a RUNNING and a PARKED one. -/
theorem QueueLaw.alone_of_restood {s : State} (h : QueueLaw s) {j : JobId} {v : Option (Stand × ClassId)}
    (hv : ∀ c, v ≠ some (.running, c) ∧ v ≠ some (.parked, c)) (k l : JobId) (c : ClassId) :
    (if k = j then v else standing k s) = some (.running, c) →
      (if l = j then v else standing l s) ≠ some (.parked, c) := by
  by_cases hk : k = j
  · simp [hk, (hv c).1]
  · by_cases hl : l = j
    · simp [hl, (hv c).2]
    · simpa [hk, hl] using h.runningAlone k l c

/-! ### Changes that keep the law -/

/-- Queue, PSU and every job's standing are the same. -/
structure SameSchedule (s t : State) : Prop where
  ready : t.ready = s.ready
  psu : t.psu = s.psu
  standing : ∀ j, standing j t = standing j s

theorem SameSchedule.refl (s : State) : SameSchedule s s := ⟨rfl, rfl, fun _ => rfl⟩

theorem SameSchedule.trans {s t u : State} (h : SameSchedule s t) (h' : SameSchedule t u) :
    SameSchedule s u :=
  ⟨h'.ready.trans h.ready, h'.psu.trans h.psu, fun j => (h'.standing j).trans (h.standing j)⟩

theorem SameSchedule.foldl {α : Type} {f : State → α → State} (h : ∀ s a, SameSchedule s (f s a))
    (l : List α) (s : State) : SameSchedule s (l.foldl f s) := by
  induction l generalizing s with
  | nil => exact .refl s
  | cons a l ih => exact (h s a).trans (ih _)

theorem SameSchedule.cls {s t : State} (h : SameSchedule s t) (c : ClassId) : t.cls c = s.cls c :=
  congrArg (Table.look · c) h.ready

/-- The job table is the same. -/
theorem SameSchedule.of_jobs {s t : State} (hready : t.ready = s.ready) (hpsu : t.psu = s.psu)
    (hjobs : t.jobs = s.jobs) : SameSchedule s t :=
  ⟨hready, hpsu, fun j => congrArg (fun u => (Table.look u j).bind Job.stand) hjobs⟩

/-- One record changes, in what the scheduler does not see. -/
theorem SameSchedule.putJob {s : State} {j : JobId} {b : Job} (v : Option Job) (hb : s.job j = some b)
    (hv : v.bind Job.stand = b.stand) : SameSchedule s (s.putJob j v) := by
  refine ⟨rfl, rfl, fun k => ?_⟩
  rw [standing_putJob]
  split
  · rename_i hk
    rw [hk, hv, standing_of_job hb]
  · rfl

theorem SameSchedule.queueLaw {s t : State} (h : SameSchedule s t) (hs : QueueLaw s) : QueueLaw t := by
  obtain ⟨h1, h2, h3, h4, h5⟩ := hs
  constructor <;> simpa only [h.cls, h.psu, h.standing]

theorem SameSchedule.schedulerLaw {s t : State} (h : SameSchedule s t) (hs : SchedulerLaw s) :
    SchedulerLaw t := by
  rw [schedulerLaw_iff] at hs ⊢
  refine ⟨h.queueLaw hs.1, fun hp c => ?_⟩
  rw [h.cls]
  exact hs.2 (h.psu.symm.trans hp) c

/-- A job without a part becomes READY at the tail of a class (03 R54). -/
structure Enqueued (j : JobId) (c : ClassId) (s t : State) : Prop where
  cls : ∀ d, t.cls d = if d = c then s.cls c ++ [j] else s.cls d
  psu : t.psu = s.psu
  standing : ∀ k, standing k t = if k = j then some (.ready, c) else standing k s

/-- A job loses its part: the queue and the PSU are without it (03 R55, R66). -/
structure Dropped (j : JobId) (s t : State) : Prop where
  cls : ∀ c, t.cls c = (s.cls c).filter fun k => k ≠ j
  psu : t.psu = s.psu.filter fun run => run.job ≠ j
  standing : ∀ k, standing k t = if k = j then none else standing k s

/-- The head of a class leaves it and runs (03 R56 to R58). -/
structure Started (j : JobId) (c : ClassId) (s t : State) : Prop where
  idle : s.psu = none
  first : (s.cls c).head? = some j
  cls : ∀ d, t.cls d = if d = c then (s.cls c).tail else s.cls d
  psu : ∃ run, t.psu = some run ∧ run.job = j
  standing : ∀ k, standing k t = if k = j then some (.running, c) else standing k s

/-- The RUNNING job parks at the head of its class (03 R62). -/
structure Parked (j : JobId) (c : ClassId) (s t : State) : Prop where
  ran : standing j s = some (.running, c)
  cls : ∀ d, t.cls d = if d = c then j :: s.cls c else s.cls d
  psu : t.psu = none
  standing : ∀ k, standing k t = if k = j then some (.parked, c) else standing k s

/-- A fire keeps the law: the tail of a class is never before a PARKED head. -/
theorem Enqueued.queueLaw {j : JobId} {c : ClassId} {s t : State} (h : Enqueued j c s t)
    (hn : Machine.standing j s = none) (hs : QueueLaw s) : QueueLaw t := by
  have hmem : ∀ d, j ∉ s.cls d := fun d hd => by simpa [hn] using (hs.queued d j).mp hd
  refine ⟨fun d => ?_, fun d k => ?_, fun k => ?_, fun k d => ?_, fun k l d => ?_⟩
  · rw [h.cls]
    split
    · simpa [List.nodup_append] using ⟨hs.nodup c, fun k hk e => hmem c (e ▸ hk)⟩
    · exact hs.nodup d
  · rw [h.cls, h.standing]
    exact hs.mem_joined hmem (by simp [or_comm]) (.inl rfl)
  · rw [h.psu, h.standing, ← hs.running]
    by_cases hk : k = j <;> simp [hk, hn]
  · rw [h.cls, h.standing]
    by_cases hk : k = j
    · simp [hk]
    · rw [if_neg hk]
      intro hp
      have hfirst := hs.parkedFirst k d hp
      split
      · rename_i hd
        rw [← hd, List.head?_append, hfirst]
        rfl
      · exact hfirst
  · rw [h.standing, h.standing]
    exact hs.alone_of_restood (by simp) k l d

/-- A list keeps its head when another element is filtered out. -/
theorem head?_filter_ne {l : List JobId} {j k : JobId} (h : l.head? = some k) (hk : k ≠ j) :
    (l.filter fun i => i ≠ j).head? = some k := by
  cases l with
  | nil => cases h
  | cons a l =>
    cases h
    simp [hk]

/-- The end of a fire keeps the law: what is left keeps its order. -/
theorem Dropped.queueLaw {j : JobId} {s t : State} (h : Dropped j s t) (hs : QueueLaw s) :
    QueueLaw t := by
  refine ⟨fun d => ?_, fun d k => ?_, fun k => ?_, fun k d => ?_, fun k l d => ?_⟩
  · rw [h.cls]
    exact (hs.nodup d).filter _
  · rw [h.cls, h.standing, List.mem_filter, hs.queued]
    by_cases hk : k = j <;> simp [hk]
  · rw [h.psu, h.standing]
    by_cases hk : k = j
    · simp [hk, Option.filter_eq_some_iff]
    · rw [if_neg hk, hs.running]
      simp only [Option.filter_eq_some_iff, decide_eq_true_eq]
      constructor
      · rintro ⟨run, hp, rfl⟩
        exact ⟨run, ⟨hp, hk⟩, rfl⟩
      · rintro ⟨run, ⟨hp, -⟩, hj⟩
        exact ⟨run, hp, hj⟩
  · rw [h.cls, h.standing]
    by_cases hk : k = j
    · simp [hk]
    · rw [if_neg hk]
      exact fun hp => head?_filter_ne (hs.parkedFirst k d hp) hk
  · rw [h.standing, h.standing]
    exact hs.alone_of_restood (by simp) k l d

/-- A start keeps the law: the only PARKED job that its class can hold is the one that starts. -/
theorem Started.queueLaw {j : JobId} {c : ClassId} {s t : State} (h : Started j c s t)
    (hs : QueueLaw s) : QueueLaw t := by
  obtain ⟨rest, hrest⟩ : ∃ rest, s.cls c = j :: rest := List.head?_eq_some_iff.mp h.first
  have hnodup := hs.nodup c
  rw [hrest, List.nodup_cons] at hnodup
  have hwaits := (hs.queued c j).mp (hrest ▸ List.mem_cons_self)
  have hother : ∀ d, j ∈ s.cls d → d = c := fun d hd => by
    rcases hwaits with hw | hw <;> exact hs.class_unique hw hd
  have hidle : ∀ k d, Machine.standing k s ≠ some (.running, d) := fun k d hk => by
    obtain ⟨run, hrun, -⟩ := hs.psu_of_running hk
    rw [h.idle] at hrun
    cases hrun
  have hparked : ∀ k, Machine.standing k s = some (.parked, c) → k = j := fun k hk =>
    Option.some.inj ((hs.parkedFirst k c hk).symm.trans h.first)
  refine ⟨fun d => ?_, fun d k => ?_, fun k => ?_, fun k d => ?_, fun k l d => ?_⟩
  · rw [h.cls]
    split
    · rw [hrest]; exact hnodup.2
    · exact hs.nodup d
  · rw [h.cls, h.standing]
    by_cases hk : k = j
    · subst hk
      by_cases hd : d = c
      · simp [hd, hrest, hnodup.1]
      · simpa [hd] using mt (hother d) hd
    · by_cases hd : d = c
      · subst hd
        simp [hk, ← hs.queued, hrest]
      · simp [hk, hd, hs.queued]
  · obtain ⟨run, hrun, hj⟩ := h.psu
    rw [h.standing, hrun]
    by_cases hk : k = j
    · simp [hk, hj]
    · simp [hk, hidle k, hj, Ne.symm hk]
  · rw [h.cls, h.standing]
    by_cases hk : k = j
    · simp [hk]
    · rw [if_neg hk]
      intro hp
      by_cases hd : d = c
      · exact absurd (hparked k (hd ▸ hp)) hk
      · rw [if_neg hd]
        exact hs.parkedFirst k d hp
  · rw [h.standing, h.standing]
    by_cases hk : k = j
    · by_cases hl : l = j
      · simp [hl]
      · simp only [hk, hl, if_true, if_false]
        intro hc hp
        cases hc
        exact hl (hparked l hp)
    · simp [hk, hidle k]

/-- A park keeps the law: while the job ran its class held no PARKED job, so the head is free. -/
theorem Parked.queueLaw {j : JobId} {c : ClassId} {s t : State} (h : Parked j c s t)
    (hs : QueueLaw s) : QueueLaw t := by
  have hmem : ∀ d, j ∉ s.cls d := fun d hd => by simpa [h.ran] using (hs.queued d j).mp hd
  have hnone : ∀ k, Machine.standing k s ≠ some (.parked, c) := fun k => hs.runningAlone j k c h.ran
  have halone : ∀ k d, Machine.standing k s = some (.running, d) → k = j := fun k d hk => by
    obtain ⟨run, hrun, rfl⟩ := hs.psu_of_running hk
    obtain ⟨run', hrun', rfl⟩ := hs.psu_of_running h.ran
    rw [hrun] at hrun'
    cases hrun'
    rfl
  refine ⟨fun d => ?_, fun d k => ?_, fun k => ?_, fun k d => ?_, fun k l d => ?_⟩
  · rw [h.cls]
    split
    · exact List.nodup_cons.mpr ⟨hmem c, hs.nodup c⟩
    · exact hs.nodup d
  · rw [h.cls, h.standing]
    exact hs.mem_joined hmem (by simp) (.inr rfl)
  · rw [h.psu, h.standing]
    by_cases hk : k = j
    · simp [hk]
    · simpa [hk] using fun d hd => hk (halone k d hd)
  · rw [h.cls, h.standing]
    by_cases hk : k = j
    · rw [if_pos hk]
      intro hc
      cases hc
      simp [hk]
    · rw [if_neg hk]
      intro hp
      rw [if_neg fun hd : d = c => hnone k (hd ▸ hp)]
      exact hs.parkedFirst k d hp
  · rw [h.standing, h.standing]
    by_cases hk : k = j
    · simp [hk]
    · simp only [hk, if_false]
      exact fun hr => absurd (halone k d hr) hk

end Sys2Proof.Machine
end

section
/-! SUPPORT. The shared operations and the blocks of the commands keep the law of the ready queue: most leave
every job's standing, a fire enqueues, and what ends a fire drops a job (01, 02, 04, 06, 08 R149). -/

namespace Sys2Proof.Machine

/-- If the queue of the first state is lawful, so is that of the second. -/
def KeepsQueue (s t : State) : Prop := QueueLaw s → QueueLaw t

theorem KeepsQueue.refl (s : State) : KeepsQueue s s := id

theorem KeepsQueue.trans {s t u : State} (h : KeepsQueue s t) (h' : KeepsQueue t u) : KeepsQueue s u :=
  h' ∘ h

theorem SameSchedule.keeps {s t : State} (h : SameSchedule s t) : KeepsQueue s t := h.queueLaw

/-- Queue, PSU and job table are the same. -/
theorem KeepsQueue.of_jobs {s t : State} (hready : t.ready = s.ready) (hpsu : t.psu = s.psu)
    (hjobs : t.jobs = s.jobs) : KeepsQueue s t := (SameSchedule.of_jobs hready hpsu hjobs).keeps

theorem KeepsQueue.putSession (s : State) (x : Port) (z : Session) : KeepsQueue s (s.putSession x z) :=
  .of_jobs rfl rfl rfl

theorem KeepsQueue.foldl {α : Type} {f : State → α → State} (h : ∀ s a, KeepsQueue s (f s a))
    (l : List α) (s : State) : KeepsQueue s (l.foldl f s) := by
  induction l generalizing s with
  | nil => exact .refl s
  | cons a l ih => exact (h s a).trans (ih _)

/-! ### Rings and sets (01, 06) -/

theorem same_freeRing (r : RingId) (s : State) : SameSchedule s (freeRing r s) := by
  refine .of_jobs ?_ ?_ (freeRing_only r s).jobs <;>
  · unfold freeRing
    cases s.ring r with
    | none => rfl
    | some g => simp only [unbind]; cases g.source <;> rfl

theorem same_refRing (r : RingId) (s : State) : SameSchedule s (refRing r s) := by
  unfold refRing
  cases s.ring r <;> exact .of_jobs rfl rfl rfl

theorem same_unrefRing (r : RingId) (s : State) : SameSchedule s (unrefRing r s) := by
  unfold unrefRing
  cases s.ring r with
  | none => exact .refl s
  | some g =>
    have h1 : SameSchedule s (s.putRing r (some { g with refs := g.refs - 1 })) := .of_jobs rfl rfl rfl
    simp only
    split
    · exact h1.trans (same_freeRing r _)
    · exact h1

theorem same_bindSource (src : Source) (r : RingId) (s : State) : SameSchedule s (bindSource src r s) := by
  cases src <;> exact .of_jobs rfl rfl rfl

theorem same_freeSet (c : SetId) (s : State) : SameSchedule s (freeSet c s) := by
  unfold freeSet
  cases s.coef c <;> exact .of_jobs rfl rfl rfl

theorem same_refSet (c : SetId) (s : State) : SameSchedule s (refSet c s) := by
  unfold refSet
  cases s.coef c <;> exact .of_jobs rfl rfl rfl

theorem same_unrefSet (c : SetId) (s : State) : SameSchedule s (unrefSet c s) := by
  unfold unrefSet
  cases s.coef c with
  | none => exact .refl s
  | some v =>
    have h1 : SameSchedule s (s.putCoef c (some { v with refs := v.refs - 1 })) := .of_jobs rfl rfl rfl
    simp only
    split
    · exact h1.trans (same_freeSet c _)
    · exact h1

/-! ### The result unit (04) -/

/-- A held result moves in, and its job goes from HELD to its return state: both are outside the queue. -/
theorem same_moveHeld (x : Port) (j : JobId) (rest : List JobId) (s : State) :
    SameSchedule s (moveHeld x j rest s) := by
  unfold moveHeld
  cases hj : s.job j with
  | none => exact .of_jobs rfl rfl rfl
  | some b =>
    cases hs : b.state with
    | held r =>
      have h1 : SameSchedule s
          (s.modSession x fun z => { z with heldOrder := rest, results := z.results ++ [r] }) :=
        .of_jobs rfl rfl rfl
      simp only [hs]
      exact h1.trans (.putJob (b := b) _ hj ((Job.stand_eq_none b.stand_returnState).trans
        (Job.stand_eq_none (by rw [hs]; rfl)).symm))
    | _ => simp only [hs]; exact .of_jobs rfl rfl rfl

theorem same_heldMove (x : Port) (s : State) : SameSchedule s (heldMove x s) := by
  unfold heldMove
  generalize (s.session x).heldOrder = l
  induction l generalizing s with
  | nil => exact .refl s
  | cons j rest ih =>
    unfold heldMoves
    split
    · exact (same_moveHeld x j rest s).trans (ih _)
    · exact .refl s

theorem same_resultsCheck (x : Port) (before : List Record) (s : State) :
    SameSchedule s (resultsCheck x before s) := by
  rw [resultsCheck_eq]
  split
  · exact .of_jobs rfl rfl rfl
  · split <;> exact .of_jobs rfl rfl rfl

/-- Records leave a result queue, and held ones may move in (04 R78, R79, R81). -/
theorem same_removeResults (x : Port) (l before : List Record) (p : Prop) [Decidable p] (s : State) :
    SameSchedule s (resultsCheck x before
      (if p then heldMove x (s.modSession x fun z => { z with results := l })
        else s.modSession x fun z => { z with results := l })) := by
  have h1 : SameSchedule s (s.modSession x fun z => { z with results := l }) := .of_jobs rfl rfl rfl
  refine .trans ?_ (same_resultsCheck _ _ _)
  split
  · exact h1.trans (same_heldMove _ _)
  · exact h1

theorem same_purge (x : Port) (j : JobId) (s : State) : SameSchedule s (purge x j s) :=
  same_removeResults x _ _ _ s

theorem same_removeOldest (x : Port) (k : Nat) (s : State) : SameSchedule s (removeOldest x k s) :=
  same_removeResults x _ _ _ s

/-! ### The end of a fire (03 R66) -/

theorem cls_abandon {j : JobId} {b : Job} {s : State} (h : QueueLaw s) (hb : s.job j = some b)
    (c : ClassId) : (abandon j b s).cls c = (s.cls c).filter fun k => k ≠ j := by
  have gone : j ∉ s.cls c → s.cls c = (s.cls c).filter fun k => k ≠ j := fun hj =>
    (List.filter_eq_self.mpr fun k hk => by simpa using fun e : k = j => hj (e ▸ hk)).symm
  have hmem := (h.queued c j).trans standing_waits
  simp only [hb, Option.some.injEq, exists_eq_left'] at hmem
  by_cases hw : b.state.waits = true
  · rw [abandon_waiting s hw, State.cls_putClass]
    split
    · rename_i hc
      rw [hc]
    · rename_i hc
      exact gone fun hj => hc (hmem.mp hj).2.symm
  · have hcls : (abandon j b s).cls c = s.cls c := by
      unfold abandon
      cases hs : b.state with
      | ready | parked p => exact absurd (by rw [hs]; rfl) hw
      | _ => rfl
    rw [hcls]
    exact gone fun hj => hw (hmem.mp hj).1

theorem psu_abandon {j : JobId} {b : Job} {s : State} (h : QueueLaw s) (hb : s.job j = some b) :
    (abandon j b s).psu = s.psu.filter fun run => run.job ≠ j := by
  have hrun := standing_running.symm.trans (h.running j)
  simp only [hb, Option.some.injEq, exists_eq_left'] at hrun
  by_cases hs : b.state = .running
  · obtain ⟨run, hp, hj⟩ := hrun.mp hs
    rw [abandon_running s hs, hp]
    simp [Option.filter, hj]
  · have hpsu : (abandon j b s).psu = s.psu := by
      unfold abandon
      cases hst : b.state with
      | running => exact absurd hst hs
      | _ => rfl
    rw [hpsu]
    cases hp : s.psu with
    | none => rfl
    | some run =>
      have hother : run.job ≠ j := fun hj => hs (hrun.mpr ⟨run, hp, hj⟩)
      exact (Option.filter_some_pos (by simpa using hother)).symm

/-- The scheduler's part in the end of a fire, then other records, then the job's own record, which is left
without a part in the queue. -/
theorem keepsQueue_drop {j : JobId} {b : Job} {s u : State} {v : Option Job} (hb : s.job j = some b)
    (hu : SameSchedule (abandon j b s) u) (hv : v.bind Job.stand = none) :
    KeepsQueue s (u.putJob j v) := fun hs => by
  refine Dropped.queueLaw (j := j) ⟨fun c => ?_, ?_, fun k => ?_⟩ hs
  · rw [State.cls_putJob, hu.cls, cls_abandon hs hb]
  · rw [State.psu_putJob, hu.psu, psu_abandon hs hb]
  · rw [standing_putJob, hv, hu.standing]
    exact congrArg _ (congrArg (Option.bind · Job.stand) (job_abandon j k b s))

theorem keepsQueue_evict (r : RingId) (s : State) (j : JobId) : KeepsQueue s (evict r s j) := by
  unfold evict
  cases hj : s.job j with
  | none => exact .refl s
  | some b =>
    have h1 : KeepsQueue s ((abandon j b s).putJob j (some { b with
        state := b.returnState, lost := bump Config.counterLimit b.lost })) :=
      keepsQueue_drop hj (.refl _) (Job.stand_eq_none b.stand_returnState)
    exact h1.trans (.of_jobs rfl rfl rfl)

theorem keepsQueue_evictAll (r : RingId) (js : List JobId) (s : State) : KeepsQueue s (evictAll r js s) :=
  .foldl (keepsQueue_evict r) js s

/-! ### Fires (02 R34 to R38) -/

theorem keepsQueue_fire {j : JobId} {b : Job} (head : Nat) (extra : Bool) {s : State}
    (hn : standing j s = none) : KeepsQueue s (fire j b head extra s) :=
  Enqueued.queueLaw (c := b.par.priority)
    ⟨fun d => State.cls_putClass _ _ _ d, rfl, fun k => standing_putJob s j k _⟩ hn

theorem keepsQueue_trigger {j : JobId} {b : Job} (countdown head fill : Nat) {s : State}
    (hb : s.job j = some b) : KeepsQueue s (trigger j { b with countdown := countdown } head fill s) := by
  by_cases hl : fill < b.par.length
  · rw [trigger_skipped (b := { b with countdown := countdown }) s hl]
    exact (SameSchedule.putJob _ hb rfl).keeps
  have hl := Nat.le_of_not_lt hl
  by_cases ha : b.state = .armed
  · rw [trigger_fires (b := { b with countdown := countdown }) s hl ha]
    exact keepsQueue_fire _ _ ((standing_of_job hb).trans (Job.stand_eq_none (by rw [ha]; rfl)))
  by_cases hd : b.state = .defined
  · have h1 : trigger j { b with countdown := countdown } head fill s =
        s.putJob j (some { b with countdown := countdown }) := by
      simp [trigger, Nat.not_lt.mpr hl, hd]
    rw [h1]
    exact (SameSchedule.putJob _ hb rfl).keeps
  · rw [trigger_missed (b := { b with countdown := countdown }) s hl ha hd]
    have h1 : SameSchedule s (s.putJob j (some { b with
        countdown := countdown, missed := bump Config.counterLimit b.missed })) := .putJob _ hb rfl
    exact h1.keeps.trans (.of_jobs rfl rfl rfl)

theorem keepsQueue_countdownJob (r : RingId) (head fill : Nat) (s : State) (j : JobId) :
    KeepsQueue s (countdownJob r head fill s j) := by
  unfold countdownJob
  cases hj : s.job j with
  | none => exact .refl s
  | some b =>
    simp only
    split
    · split
      · exact keepsQueue_trigger _ _ _ hj
      · exact (SameSchedule.putJob _ hj rfl).keeps
    · exact .refl s

theorem keepsQueue_countdownStep (r : RingId) (head fill : Nat) (s : State) :
    KeepsQueue s (countdownStep r head fill s) :=
  .foldl (keepsQueue_countdownJob r head fill) allJobs s

theorem keepsQueue_writeSample (r : RingId) (g : Ring) (v : Word16) (s : State) :
    KeepsQueue s (writeSample r g v s) := by
  have h1 : KeepsQueue s
      ({ s with sampleMem := s.sampleMem.write (g.base + g.head % g.capacity) v }.putRing r
        (some g.taken)) := .of_jobs rfl rfl rfl
  exact h1.trans (keepsQueue_countdownStep _ _ _ _)

theorem keepsQueue_writeSamples (r : RingId) (ws : List Word16) (n : Nat) (s : State) :
    KeepsQueue s (writeSamples r ws n s).2 := by
  induction ws generalizing n s with
  | nil => exact .refl s
  | cons v ws ih =>
    unfold writeSamples
    cases s.ring r with
    | none => exact .refl s
    | some g =>
      simp only
      split
      · exact (keepsQueue_writeSample r g v s).trans (ih _ _)
      · exact .refl s

theorem keepsQueue_evictOverwritten (r : RingId) (g : Ring) (s : State) :
    KeepsQueue s (evictOverwritten r g s) := by
  unfold evictOverwritten
  split
  · exact keepsQueue_evictAll _ _ _
  · exact .refl s

/-! ### The run scheduler (03) -/

/-- A run in flight is that of its RUNNING job (03 R53). -/
theorem QueueLaw.inFlight {s : State} (h : QueueLaw s) {run : Run} {b : Job}
    (hf : inFlightRun s = some (run, b)) : b.state = .running := by
  obtain ⟨hp, hb⟩ := job_of_inFlightRun hf
  obtain ⟨c, hc, hs⟩ := standing_running.mp ((h.running run.job).mpr ⟨run, hp, rfl⟩)
  rw [hb] at hc
  cases hc
  exact hs

theorem keepsQueue_segmentEnd {s : State} {run : Run} {b : Job} (hf : inFlightRun s = some (run, b)) :
    KeepsQueue s (segmentEnd b run s) := fun hs => by
  have hb := (job_of_inFlightRun hf).2
  have hrun := hs.inFlight hf
  have hjob := (addProducts_next s b Config.segment run).2
  unfold segmentEnd
  generalize addProducts s b Config.segment run = run' at hjob ⊢
  simp only
  split
  · refine Parked.queueLaw (s := s) (j := run'.job) (c := b.par.priority) ⟨?_,
      fun d => State.cls_putClass _ _ _ d, rfl,
      fun k => standing_putJob s run'.job k (some (b.parked run'))⟩ hs
    rw [hjob, standing_of_job hb, Job.stand_eq_some]
    exact ⟨JobState.stand_running.mpr hrun, rfl⟩
  · obtain ⟨h1, h2, h3, h4, h5⟩ := hs
    refine ⟨h1, h2, fun j => (h3 j).trans ?_, h4, h5⟩
    simp only [(job_of_inFlightRun hf).1, Option.some.injEq, exists_eq_left', hjob]

/-- A result enters the unit, and its job, whose run has left the PSU, goes to its return state or is HELD
(04 R76). -/
theorem keepsQueue_postResult {j : JobId} {b c : Job} {s u : State} (r : Record) (hb : s.job j = some b)
    (hu : SameSchedule (abandon j b s) u) : KeepsQueue s (postResult j c r u) := by
  have put : ∀ st : JobState, st.stand = none → KeepsQueue s (u.putJob j (some { c with state := st })) :=
    fun st hst => keepsQueue_drop hb hu (Job.stand_eq_none hst)
  unfold postResult
  simp only
  split
  · have h1 := put c.returnState c.stand_returnState
    have h2 : KeepsQueue _ ((u.putJob j (some { c with state := c.returnState })).modSession c.owner
        fun z => { z with results := z.results ++ [r] }) := h1.trans (.of_jobs rfl rfl rfl)
    exact h2.trans (same_resultsCheck _ _ _).keeps
  · exact (put (.held r) rfl).trans (.of_jobs rfl rfl rfl)

theorem keepsQueue_runEnd {s : State} {run : Run} {b : Job} (hf : inFlightRun s = some (run, b)) :
    KeepsQueue s (runEnd b run s) := fun hs => by
  unfold runEnd
  refine keepsQueue_postResult _ (job_of_inFlightRun hf).2 ?_ hs
  rw [abandon_running s (hs.inFlight hf)]
  exact .of_jobs rfl rfl rfl

/-! ### Deletion and teardown (02 R45, 08 R149) -/

/-- Deletion ends the fire as abandoning does; a HELD job has none, and leaves the held order list alone. -/
theorem same_endFire (j : JobId) (b : Job) (s : State) : SameSchedule (abandon j b s) (endFire j b s) := by
  unfold endFire
  cases hs : b.state with
  | held r => rw [abandon_idle s (by rw [hs]; rfl)]; exact .of_jobs rfl rfl rfl
  | _ => exact .refl _

theorem keepsQueue_deleteJob (j : JobId) (s : State) : KeepsQueue s (deleteJob j s) := by
  unfold deleteJob
  cases hj : s.job j with
  | none => exact .refl s
  | some b =>
    have h1 := (same_endFire j b s).trans (same_purge b.owner j _)
    have h2 : SameSchedule _ ((purge b.owner j (endFire j b s)).modSession b.owner fun z =>
        { z with pendingList := withdrawJob j z.pendingList }) := h1.trans (.of_jobs rfl rfl rfl)
    exact keepsQueue_drop hj ((h2.trans (same_unrefRing _ _)).trans (same_unrefSet _ _)) rfl

theorem keepsQueue_deleteOwned (x : Port) (s : State) (j : JobId) : KeepsQueue s (deleteOwned x s j) := by
  unfold deleteOwned
  cases s.job j with
  | none => exact .refl s
  | some b =>
    simp only
    split
    · exact keepsQueue_deleteJob j s
    · exact .refl s

theorem same_leaveRing (x : Port) (s : State) (r : RingId) : SameSchedule s (leaveRing x s r) := by
  unfold leaveRing
  cases s.ring r with
  | none => exact .refl s
  | some g =>
    simp only
    split
    · split
      · exact same_freeRing r s
      · exact .of_jobs rfl rfl rfl
    · exact .refl s

theorem same_leaveSet (x : Port) (s : State) (c : SetId) : SameSchedule s (leaveSet x s c) := by
  unfold leaveSet
  cases s.coef c with
  | none => exact .refl s
  | some v =>
    cases hp : v.phase with
    | loading => simp only [hp]; exact .refl s
    | ready o crc =>
      simp only [hp]
      split
      · split
        · exact same_freeSet c s
        · exact .of_jobs rfl rfl rfl
      · exact .refl s

theorem same_closeLoad (x : Port) (s : State) : SameSchedule s (closeLoad x s) := by
  unfold closeLoad
  cases (s.session x).load with
  | none => exact .refl s
  | some l => exact (same_freeSet l.set s).trans (.of_jobs rfl rfl rfl)

theorem keepsQueue_teardown (x : Port) (s : State) : KeepsQueue s (teardown x s) := by
  have h1 := (same_closeLoad x s).keeps.trans (.foldl (keepsQueue_deleteOwned x) allJobs _)
  have h2 := h1.trans (SameSchedule.foldl (same_leaveRing x) allRings _).keeps
  have h3 := h2.trans (SameSchedule.foldl (same_leaveSet x) allSets _).keeps
  exact h3.trans (.putSession _ x Session.closed)

theorem keepsQueue_teardownIfOpen (x : Port) (s : State) : KeepsQueue s (teardownIfOpen x s) := by
  unfold teardownIfOpen
  split
  · exact keepsQueue_teardown x s
  · exact .refl s

/-! ### The blocks of the commands -/

/-- A block whose answer keeps the law of the queue. -/
def BlockKeepsQueue (act : List Byte → State → Option Answer) : Prop :=
  ∀ args s a, act args s = some a → KeepsQueue s a.state

theorem ChangesNothing.keepsQueue {act : List Byte → State → Option Answer} (h : ChangesNothing act) :
    BlockKeepsQueue act := fun args s a ha => by
  rw [h args s a ha]
  exact .refl s

/-! A refusal leaves the state, so only what stands behind a block's last check matters. -/

theorem ringCreate_keepsQueue (x : Port) : BlockKeepsQueue (ringCreate x) := by
  intro args s a h
  unfold ringCreate at h
  split at h <;> cases h
  simp only
  iterate 6 (split; · exact .refl s)
  have h1 : ∀ free r v, SameSchedule s ({ s with sampleFree := free }.putRing r v) :=
    fun _ _ _ => .of_jobs rfl rfl rfl
  exact ((h1 _ _ _).trans (same_bindSource _ _ _)).keeps

theorem ringDelete_keepsQueue (x : Port) : BlockKeepsQueue (ringDelete x) := by
  intro args s a h
  unfold ringDelete at h
  split at h <;> cases h
  simp only
  iterate 4 (split; · exact .refl s)
  exact (same_freeRing _ s).keeps

theorem ringFlush_keepsQueue (x : Port) : BlockKeepsQueue (ringFlush x) := by
  intro args s a h
  unfold ringFlush at h
  split at h <;> cases h
  simp only
  iterate 3 (split; · exact .refl s)
  exact (keepsQueue_evictAll _ _ s).trans (.of_jobs rfl rfl rfl)

theorem ringWrite_keepsQueue (x : Port) : BlockKeepsQueue (ringWrite x) := by
  intro args s a h
  unfold ringWrite at h
  split at h
  · split at h
    · cases h
    · split at h <;> cases h
      simp only
      iterate 5 (split; · exact .refl s)
      exact keepsQueue_writeSamples _ _ 0 s
  · cases h

theorem setBegin_keepsQueue (x : Port) : BlockKeepsQueue (setBegin x) := by
  intro args s a h
  unfold setBegin at h
  split at h <;> cases h
  simp only
  iterate 5 (split; · exact .refl s)
  exact .of_jobs rfl rfl rfl

theorem setData_keepsQueue (x : Port) : BlockKeepsQueue (setData x) := by
  intro args s a h
  unfold setData at h
  split at h
  · split at h
    · cases h
    · split at h <;> cases h
      simp only
      iterate 4 (split; · exact .refl s)
      split
      · exact .of_jobs rfl rfl rfl
      · split <;> exact .refl s
  · cases h

theorem setEnd_keepsQueue (x : Port) : BlockKeepsQueue (setEnd x) := by
  intro args s a h
  unfold setEnd at h
  split at h <;> cases h
  simp only
  iterate 3 (split; · exact .refl s)
  split <;> exact .of_jobs rfl rfl rfl

theorem setAbort_keepsQueue (x : Port) : BlockKeepsQueue (setAbort x) := by
  intro args s a h
  unfold setAbort at h
  split at h <;> cases h
  split
  · exact .refl s
  · exact (same_freeSet _ s).keeps.trans (.of_jobs rfl rfl rfl)

theorem setDelete_keepsQueue (x : Port) : BlockKeepsQueue (setDelete x) := by
  intro args s a h
  unfold setDelete at h
  split at h <;> cases h
  simp only
  iterate 5 (split; · exact .refl s)
  exact (same_freeSet _ s).keeps

/-- A definition reaches an EMPTY record or a DEFINED job of its session (02 R28). -/
theorem defineOwner_eq_none {x : Port} {o : Option Job} (h : defineOwner x o = none) :
    o.bind Job.stand = none := by
  cases o with
  | none => rfl
  | some b =>
    simp only [defineOwner] at h
    split at h
    · cases h
    · split at h
      · cases h
      · rename_i hd
        exact Job.stand_eq_none (by rw [not_not.mp hd]; rfl)

/-- A job without a part in the queue is replaced by a DEFINED one (02 R29, R30). -/
theorem same_putFresh {x : Port} {j : JobId} {r : RingId} {c : SetId} {par : Params} {run : Word16}
    {s u : State} (hu : SameSchedule s u) (hn : standing j s = none) :
    SameSchedule s (u.putJob j (some (Job.fresh x r c par run))) := by
  refine ⟨hu.ready, hu.psu, fun k => ?_⟩
  rw [standing_putJob]
  split
  · rename_i hk
    rw [hk, hn]
    rfl
  · exact hu.standing k

theorem keepsQueue_defineNew {x : Port} {j : JobId} {r : RingId} {c : SetId} {par : Params} {s : State}
    (hn : standing j s = none) : KeepsQueue s (defineNew x j r c par s) :=
  (same_putFresh ((same_refRing r s).trans (same_refSet c _)) hn).keeps

theorem keepsQueue_redefine {x : Port} {j : JobId} {b : Job} {r : RingId} {c : SetId} {par : Params}
    {s : State} (hn : standing j s = none) : KeepsQueue s (redefine x j b r c par s) := by
  have h1 := (same_refRing r s).trans (same_unrefRing b.ring _)
  have h2 := h1.trans ((same_refSet c _).trans (same_unrefSet b.set _))
  exact (same_putFresh h2 hn).keeps.trans (.of_jobs rfl rfl rfl)

theorem jobDefine_keepsQueue (x : Port) : BlockKeepsQueue (jobDefine x) := by
  intro args s a h
  unfold jobDefine at h
  split at h <;> cases h
  simp only
  split
  · exact .refl s
  rename_i j _
  split
  · exact .refl s
  rename_i hown
  split
  · exact .refl s
  have hn : standing j s = none := defineOwner_eq_none hown
  split
  · exact keepsQueue_defineNew hn
  · exact keepsQueue_redefine hn

theorem jobArm_keepsQueue (x : Port) : BlockKeepsQueue (jobArm x) := by
  intro args s a h
  unfold jobArm at h
  split at h <;> cases h
  simp only
  split
  · exact .refl s
  rename_i j b hj
  iterate 2 (split; · exact .refl s)
  refine (SameSchedule.putJob _ (ownedJob_ok hj) ?_).keeps
  by_cases hd : b.state = .defined <;> simp [Job.stand, hd, JobState.stand]

theorem jobStart_keepsQueue (x : Port) : BlockKeepsQueue (jobStart x) := by
  intro args s a h
  unfold jobStart at h
  split at h <;> cases h
  simp only
  split
  · exact .refl s
  rename_i j b hj
  split
  · exact .refl s
  rename_i hst
  split
  · exact .refl s
  refine keepsQueue_fire _ _ ?_
  rw [standing_of_job (ownedJob_ok hj)]
  rw [← not_or, not_not] at hst
  refine Job.stand_eq_none ?_
  rcases hst with hst | hst <;> rw [hst] <;> rfl

/-- A cancelled job is DEFINED or HELD (02 R41 to R43). -/
theorem Job.stand_cancelled (b : Job) : b.cancelled.state.stand = none := by
  unfold Job.cancelled
  cases b.state <;> rfl

theorem jobCancel_keepsQueue (x : Port) : BlockKeepsQueue (jobCancel x) := by
  intro args s a h
  unfold jobCancel at h
  split at h <;> cases h
  simp only
  split
  · exact .refl s
  · rename_i j b hj
    exact keepsQueue_drop (ownedJob_ok hj) (.refl _) (Job.stand_eq_none b.stand_cancelled)

theorem jobDelete_keepsQueue (x : Port) : BlockKeepsQueue (jobDelete x) := by
  intro args s a h
  unfold jobDelete at h
  split at h <;> cases h
  split
  · exact .refl s
  · exact keepsQueue_deleteJob _ s

theorem keepsQueue_putWatch {x : Port} {j : JobId} {b : Job} {s : State} (w : Option Watch)
    (hj : s.job j = some b) : KeepsQueue s (putWatch x j b w s) := by
  have h1 : SameSchedule s (s.putJob j (some { b with watch := w })) := .putJob _ hj rfl
  exact h1.keeps.trans (.of_jobs rfl rfl rfl)

theorem jobWatch_keepsQueue (x : Port) : BlockKeepsQueue (jobWatch x) := by
  intro args s a h
  unfold jobWatch at h
  split at h <;> cases h
  simp only
  split
  · exact .refl s
  rename_i j b hj
  split
  · exact keepsQueue_putWatch none (ownedJob_ok hj)
  iterate 2 (split; · exact .refl s)
  exact keepsQueue_putWatch _ (ownedJob_ok hj)

theorem fetchBlock_keepsQueue (x : Port) : BlockKeepsQueue (fetchBlock x) := by
  intro args s a h
  unfold fetchBlock at h
  split at h <;> cases h
  simp only
  split
  · exact .refl s
  · exact (same_removeOldest x _ s).keeps

end Sys2Proof.Machine
end

section
/-! SUPPORT. The end of a happening restores what the queue's law leaves open, and so every step keeps the
law of the scheduler and leaves nothing that the scheduler or an IDLE port U could begin (03 R56, 10 R180). -/

namespace Sys2Proof.Machine

/-! ### The start step (03 R56 to R58) -/

/-- The queue is empty, or one of its non-empty classes is the highest (03 R56). -/
theorem highest_class (s : State) : (∀ c, s.cls c = []) ∨
    ∃ c j rest, s.cls c = j :: rest ∧ ∀ d, c < d → s.cls d = [] := by
  by_cases h : ∃ c, s.cls c ≠ []
  · obtain ⟨c, hc⟩ := h
    obtain ⟨m, hm, hmax⟩ := (Finset.univ.filter fun d => s.cls d ≠ []).exists_max_image id
      ⟨c, by simpa using hc⟩
    obtain ⟨j, rest, hcons⟩ := List.exists_cons_of_ne_nil (by simpa using hm : s.cls m ≠ [])
    refine .inr ⟨m, j, rest, hcons, fun d hd => ?_⟩
    by_contra hne
    exact absurd (hmax d (by simpa using hne)) (not_le.mpr hd)
  · exact .inl fun c => by_contra fun hc => h ⟨c, hc⟩

/-- A waiting job at the head of the highest non-empty class starts or resumes (03 R57, R58). -/
theorem startStep_waiting {s : State} {c : ClassId} {j : JobId} {b : Job} {rest : List JobId}
    (hp : s.psu = none) (h : s.cls c = j :: rest) (hi : ∀ d, c < d → s.cls d = [])
    (hj : s.job j = some b) (hw : b.state.waits = true) :
    ∃ run : Run, run.job = j ∧ startStep s =
      { (s.putClass c rest).putJob j (some { b with state := .running }) with psu := some run } := by
  cases hs : b.state with
  | ready => exact ⟨_, rfl, startStep_ready hp h hi hj hs⟩
  | parked p => exact ⟨_, rfl, startStep_parked hp h hi hj hs⟩
  | _ => simp [hs, JobState.waits] at hw

/-- With a lawful queue the start step settles the scheduler (03 R56). -/
theorem schedulerLaw_startStep {s : State} (hs : QueueLaw s) : SchedulerLaw (startStep s) := by
  rw [schedulerLaw_iff]
  cases hp : s.psu with
  | some run =>
    rw [startStep_busy hp]
    exact ⟨hs, fun hn => by rw [hp] at hn; cases hn⟩
  | none =>
    rcases highest_class s with hempty | ⟨c, j, rest, hcls, hi⟩
    · rw [startStep_empty hempty]
      exact ⟨hs, fun _ => hempty⟩
    · obtain ⟨b, hb, hw, rfl⟩ := standing_waits.mp ((hs.queued c j).mp (hcls ▸ List.mem_cons_self))
      obtain ⟨run, hj, hstart⟩ := startStep_waiting hp hcls hi hb hw
      rw [hstart]
      refine ⟨Started.queueLaw (s := s) (j := j) (c := b.par.priority)
        ⟨hp, by rw [hcls]; rfl, fun d => ?_, ⟨run, rfl, hj⟩, fun k => ?_⟩ hs, nofun⟩
      · rw [hcls]
        exact State.cls_putClass s _ rest d
      · exact standing_putJob (s.putClass b.par.priority rest) j k (some { b with state := .running })

/-! ### Sending and the transmitters (09 R157, R159; 10 R174 to R180) -/

/-- A sent ALERT sets a reported class alone (05 R98). -/
theorem same_sendEntry (x : Port) (e : Entry) (rest : List Entry) (s : State) :
    SameSchedule s (sendEntry x e rest s) := by
  have h1 : SameSchedule s (reportClass e s) := by
    unfold reportClass
    cases e with
    | alert j c v run n =>
      cases hj : s.job j with
      | none => simp only [hj]; exact .refl s
      | some b =>
        cases hw : b.watch with
        | none => simp only [hj, hw]; exact .refl s
        | some w => simp only [hj, hw]; exact .putJob _ hj rfl
    | fault j r n => exact .refl s
    | overrun j n => exact .refl s
    | results => exact .refl s
  exact h1.trans (.of_jobs rfl rfl rfl)

theorem same_arbiter (p : Port) (s : State) : SameSchedule s (arbiter p s).2 := by
  unfold arbiter
  cases (s.port p).fifo with
  | cons f rest => exact .of_jobs rfl rfl rfl
  | nil =>
    cases offer p s with
    | again n => exact .of_jobs rfl rfl rfl
    | fresh e rest => exact same_sendEntry p e rest s
    | nothing => exact .refl s

theorem same_askU (s : State) : SameSchedule s (askU s) := by
  unfold askU
  cases s.txU with
  | some f => exact .refl s
  | none => exact (same_arbiter .u s).trans (.of_jobs rfl rfl rfl)

theorem same_askS (s : State) : SameSchedule s (askS s) := by
  have h := same_arbiter .s s
  unfold askS
  rcases ha : arbiter .s s with ⟨f, s'⟩
  rw [ha] at h
  cases f <;> exact h.trans (.of_jobs rfl rfl rfl)

/-- The arbiter gives no frame only when nothing waits, and then it leaves the state (10 R180). -/
theorem arbiter_none {p : Port} {s : State} (h : (arbiter p s).1 = none) :
    (s.port p).fifo = [] ∧ offer p s = .nothing ∧ (arbiter p s).2 = s := by
  unfold arbiter at h ⊢
  cases hf : (s.port p).fifo with
  | cons f rest => simp [hf] at h
  | nil => cases ho : offer p s <;> simp_all

/-- A port U that stays IDLE when it asks has nothing to send (10 R180). -/
theorem portUSettled_askU (s : State) : PortUSettled (askU s) := by
  intro h
  unfold askU at h ⊢
  cases ht : s.txU with
  | some f => simp [ht] at h
  | none =>
    simp only [ht] at h ⊢
    obtain ⟨hfifo, hoffer, hsame⟩ := arbiter_none h
    rw [hsame]
    exact ⟨hfifo, hoffer⟩

theorem same_noticeSent (x : Port) (f : Frame) (s : State) : SameSchedule s (noticeSent x f s) := by
  unfold noticeSent
  split <;> exact .of_jobs rfl rfl rfl

theorem same_endS (s : State) : SameSchedule s (endS s) := by
  unfold endS
  cases s.txS.current with
  | none => exact .refl s
  | some o =>
    have h1 : SameSchedule s { s with txS := { s.txS with current := none, filler := false } } :=
      .of_jobs rfl rfl rfl
    simp only
    split
    · exact h1.trans (same_noticeSent _ _ _)
    · exact .refl s

theorem same_startExchange (s : State) : SameSchedule s (startExchange s) := by
  have h : SameSchedule s (select (endS s)) := (same_endS s).trans (.of_jobs rfl rfl rfl)
  unfold startExchange
  simp only
  split
  · exact h.trans (same_askS _)
  · exact h

theorem same_exchangeS (s : State) : SameSchedule s (exchangeS s) := by
  unfold exchangeS
  simp only
  split <;> exact (same_startExchange s).trans (.of_jobs rfl rfl rfl)

/-! ### Arrivals, bytes and timers (08 R133 to R141, 09 R160 to R163, 10 R168 to R173) -/

theorem same_placeIfRoom (x : Port) (f : Frame) (s : State) : SameSchedule s (placeIfRoom x f s) := by
  unfold placeIfRoom
  split <;> exact .of_jobs rfl rfl rfl

theorem keepsQueue_arriveHello (x : Port) (f : Frame) (s : State) : KeepsQueue s (arriveHello x f s) := by
  have refused : ∀ st, KeepsQueue s (place x (replyFrame f.seq st codeHello []) s) :=
    fun st => .of_jobs rfl rfl rfl
  unfold arriveHello
  split
  · unfold takeHello
    simp only
    split
    · iterate 3 (split; · exact refused _)
      exact (keepsQueue_teardownIfOpen x s).trans (.of_jobs rfl rfl rfl)
    · exact refused _
  · exact .refl s

theorem same_accept (x : Port) (f : Frame) (s : State) : SameSchedule s (accept x f s) := by
  unfold accept
  simp only
  split
  · split
    · exact .of_jobs rfl rfl rfl
    · exact same_placeIfRoom _ _ _
  · split
    · exact .refl s
    · split <;> exact same_placeIfRoom _ _ _

theorem keepsQueue_arriveCommand (x : Port) (f : Frame) (s : State) :
    KeepsQueue s (arriveCommand x f s) := by
  unfold arriveCommand
  split
  · exact keepsQueue_arriveHello x f s
  · split
    · exact (same_accept x f s).keeps
    · exact (same_placeIfRoom _ _ _).keeps

theorem same_arriveAck (x : Port) (f : Frame) (s : State) : SameSchedule s (arriveAck x f s) := by
  unfold arriveAck
  split
  · cases younger f.seq (s.session x).inFlight <;> exact .of_jobs rfl rfl rfl
  · exact .refl s

theorem keepsQueue_resolve (p : Port) (f : Frame) (good : Bool) (s : State) :
    KeepsQueue s (resolve p f good s) := by
  unfold resolve
  split
  · exact .of_jobs rfl rfl rfl
  · split
    · exact keepsQueue_arriveCommand p f s
    · split
      · exact (same_arriveAck p f s).keeps
      · split <;> exact .of_jobs rfl rfl rfl

theorem keepsQueue_deliver (p : Port) (b : Byte) (s : State) : KeepsQueue s (deliver p b s) := by
  have h1 : SameSchedule s (exchange p s) := by
    cases p
    · exact .refl s
    · exact same_exchangeS s
  have h2 : SameSchedule s (noteByteU p (exchange p s)) :=
    h1.trans (by cases p <;> exact .of_jobs rfl rfl rfl)
  have h3 : KeepsQueue s ((noteByteU p (exchange p s)).modPort p fun q =>
      { q with rx := (((noteByteU p (exchange p s)).port p).rx.take b).1 }) :=
    h2.keeps.trans (.of_jobs rfl rfl rfl)
  unfold deliver
  simp only
  split
  · exact h3
  · exact h3.trans (.of_jobs rfl rfl rfl)
  · exact h3.trans (keepsQueue_resolve p _ _ _)

theorem keepsQueue_expire (x : Port) (s : State) : KeepsQueue s (expire x s) := by
  unfold expire
  split
  · exact .of_jobs rfl rfl rfl
  · exact (keepsQueue_teardownIfOpen x s).trans (.of_jobs rfl rfl rfl)

theorem same_breakPartial (p : Port) (s : State) : SameSchedule s (breakPartial p s) := by
  unfold breakPartial
  split <;> exact .of_jobs rfl rfl rfl

theorem keepsQueue_linkReset (s : State) : KeepsQueue s (linkReset s) := by
  have h1 : KeepsQueue s (s.modPort .u fun q => { q with rx := .hunt }) := .of_jobs rfl rfl rfl
  exact (h1.trans (keepsQueue_teardownIfOpen .u _)).trans (.of_jobs rfl rfl rfl)

/-! ### Happenings -/

/-- What a happening keeps: the scheduler's law, and that nothing waits for an IDLE port U. -/
structure KeepsSettled (s t : State) : Prop where
  scheduler : SchedulerLaw s → SchedulerLaw t
  portU : PortUSettled s → PortUSettled t

theorem KeepsSettled.refl (s : State) : KeepsSettled s s := ⟨id, id⟩

theorem KeepsSettled.trans {s t u : State} (h : KeepsSettled s t) (h' : KeepsSettled t u) :
    KeepsSettled s u := ⟨h'.scheduler ∘ h.scheduler, h'.portU ∘ h.portU⟩

theorem KeepsSettled.foldl {α : Type} {f : State → α → State} (h : ∀ s a, KeepsSettled s (f s a))
    (l : List α) (s : State) : KeepsSettled s (l.foldl f s) := by
  induction l generalizing s with
  | nil => exact .refl s
  | cons a l ih => exact (h s a).trans (ih _)

/-- A change beside the queue, the PSU, the jobs and port U. -/
theorem KeepsSettled.of_jobs {s t : State} (hready : t.ready = s.ready) (hpsu : t.psu = s.psu)
    (hjobs : t.jobs = s.jobs) (hport : PortUSettled s → PortUSettled t) : KeepsSettled s t :=
  ⟨(SameSchedule.of_jobs hready hpsu hjobs).schedulerLaw, hport⟩

/-- A happening that keeps the queue's law is settled by its end, whatever it left to begin (03 R56,
10 R180). -/
theorem KeepsQueue.finish {s u : State} (h : KeepsQueue s u) : KeepsSettled s (finish u) :=
  ⟨fun hs => (same_askU _).schedulerLaw (schedulerLaw_startStep (h ((schedulerLaw_iff s).mp hs).1)),
    fun _ => portUSettled_askU _⟩

/-- A happening whose condition fails leaves the state (log 2). -/
theorem settled_ite {p : Prop} [Decidable p] {s t u : State} (hu : KeepsQueue s u)
    (h : (if p then Host.Outcome.next (finish u) else .next s) =
      Host.Outcome.next (φ := Fault) (ρ := Refusal) t) : KeepsSettled s t := by
  split at h <;> cases h
  · exact hu.finish
  · exact .refl s

theorem settled_hear (p : Port) (b : Byte) (s : State) : KeepsSettled s (hear p b s) := by
  have h := (keepsQueue_deliver p b s).finish
  unfold hear
  simp only
  split
  · refine h.trans ?_
    rcases expireOverdue_cases p (finish (deliver p b s)) with ⟨-, he⟩ | ⟨-, he⟩ <;> rw [he]
    · exact (keepsQueue_expire p _).finish
    · exact .refl _
  · exact h

theorem settled_timed {due : State → Option Nat} {act : State → State}
    (hact : ∀ u, KeepsQueue u (act u)) {s t : State} (h : timed due act s = .next t) :
    KeepsSettled s t := by
  rcases timed_cases due act s with ⟨n, -, -, hn⟩ | ⟨-, hn⟩ <;> rw [hn] at h <;> cases h
  · have h1 : SameSchedule s (advanceTo n (endS s)) := (same_endS s).trans (.of_jobs rfl rfl rfl)
    exact (h1.keeps.trans (hact _)).finish
  · exact .refl s

theorem settled_word (l : List Bool) (s : State) : KeepsSettled s { s with spWord := l } :=
  .of_jobs rfl rfl rfl id

theorem settled_sampleArrival (c : ChannelId) (v : Word16) (s : State) :
    KeepsSettled s (sampleArrival c v s) := by
  unfold sampleArrival
  cases s.binding c with
  | none => exact .refl s
  | some r =>
    simp only
    cases s.ring r with
    | none => exact .refl s
    | some g =>
      simp only
      split
      · exact ((keepsQueue_evictOverwritten r g s).trans (keepsQueue_writeSample r g v _)).finish
      · exact .refl s

theorem settled_clockSample (s : State) (t : SpPeriod) : KeepsSettled s (clockSample s t) := by
  unfold clockSample
  split
  · exact settled_word _ s
  · split
    · exact .refl s
    · simp only
      split
      · exact settled_word _ s
      · exact (settled_word [] s).trans (settled_sampleArrival _ _ _)

theorem settled_runHappening {s t : State} (h : execSegmentEnd s = .next t ∨ execRunEnd s = .next t) :
    KeepsSettled s t := by
  unfold execSegmentEnd execRunEnd at h
  cases hf : inFlightRun s with
  | none => simp only [hf, or_self] at h; cases h; exact .refl s
  | some rb =>
    obtain ⟨run, b⟩ := rb
    simp only [hf] at h
    rcases h with h | h
    · exact settled_ite (keepsQueue_segmentEnd hf) h
    · rw [← ite_not] at h
      exact settled_ite (keepsQueue_runEnd hf) h

/-! ### The execution of a command (08 R143 to R147) -/

theorem keepsQueue_takeCommand (x : Port) (rest : List Command) (s : State) :
    KeepsQueue s (takeCommand x rest s) := .of_jobs rfl rfl rfl

theorem keepsQueue_reply (x : Port) (f : Frame) (s : State) : KeepsQueue s (reply x f s) :=
  .of_jobs rfl rfl rfl

theorem keepsQueue_execute {x : Port} {code : Byte} {act : List Byte → State → Option Answer}
    (hact : BlockKeepsQueue act) {s t : State} (h : execute x code act s = some t) : KeepsQueue s t := by
  unfold execute at h
  split at h
  · split at h
    · simp only at h
      split at h <;> cases h
      · rename_i ha
        exact ((keepsQueue_takeCommand x _ s).trans (hact _ _ _ ha)).trans (keepsQueue_reply _ _ _)
      · exact (keepsQueue_takeCommand x _ s).trans (keepsQueue_reply _ _ _)
    · cases h
  · cases h

theorem settled_runCommand {act : List Byte → State → Option Answer} (hact : BlockKeepsQueue act)
    (x : Port) (code : Byte) (s : State) : KeepsSettled s (runCommand x code act s) := by
  unfold runCommand
  cases h : execute x code act s with
  | none => exact .refl s
  | some t => exact (keepsQueue_execute hact h).finish

theorem settled_badKind (x : Port) (s : State) : KeepsSettled s (badKind x s) := by
  unfold badKind
  cases nextCommand x s with
  | none => exact .refl s
  | some cr =>
    simp only
    split
    · exact .refl s
    · exact ((keepsQueue_takeCommand x cr.2 s).trans (keepsQueue_reply x _ _)).finish

theorem settled_bye (x : Port) (s : State) : KeepsSettled s (bye x s) := by
  unfold bye
  cases h : execute x 0x11 byeBlock s with
  | none => exact .refl s
  | some t =>
    have h1 := keepsQueue_execute byeBlock_changesNothing.keepsQueue h
    refine KeepsQueue.finish ?_
    split
    · exact h1.trans (keepsQueue_teardown x t)
    · exact h1

/-! ### Every step -/

theorem cls_resetDevice (baud : Level) (lines : Lines) (s : State) (c : ClassId) :
    (resetDevice baud lines s).cls c = [] := Table.look_replicate [] c

theorem settled_resetDevice (baud : Level) (lines : Lines) (s : State) :
    KeepsSettled s (resetDevice baud lines s) := by
  refine ⟨fun _ => ?_, fun _ _ => ?_⟩
  · have hjob := job_resetDevice baud lines s
    have hcls := cls_resetDevice baud lines s
    have hpsu : (resetDevice baud lines s).psu = none := rfl
    constructor <;> simp [hjob, hcls, hpsu, SchedulerSettled]
  · simp [PortState.reset, offer, Session.closed]

theorem exec_settled {i : Instr} {s t : State} (h : exec i s = .next t) : KeepsSettled s t := by
  have run : ∀ {act x code}, BlockKeepsQueue act →
      Host.Outcome.next (φ := Fault) (ρ := Refusal) (runCommand x code act s) = .next t →
      KeepsSettled s t := fun hact h => by
    cases h
    exact settled_runCommand hact _ _ s
  cases i with
  | rstn baud lines => cases h; exact settled_resetDevice baud lines s
  | sampleArrival periods => cases h; exact .foldl settled_clockSample periods s
  | segmentEnd => exact settled_runHappening (.inl h)
  | runEnd => exact settled_runHappening (.inr h)
  | frameResolution p last =>
    simp only [exec, execFrameResolution] at h
    split at h <;> cases h
    · exact settled_hear p last s
    · exact .refl s
  | frameLengthError p len => exact settled_ite (keepsQueue_deliver p len s) h
  | hello p last => exact settled_ite (keepsQueue_deliver p last s) h
  | badKind x => cases h; exact settled_badKind x s
  | bye x => cases h; exact settled_bye x s
  | status x => exact run (statusBlock_changesNothing x).keepsQueue h
  | ringCreate x => exact run (ringCreate_keepsQueue x) h
  | ringDelete x => exact run (ringDelete_keepsQueue x) h
  | ringFlush x => exact run (ringFlush_keepsQueue x) h
  | ringWrite x => exact run (ringWrite_keepsQueue x) h
  | ringRead x => exact run ringRead_changesNothing.keepsQueue h
  | ringQuery x => exact run ringQuery_changesNothing.keepsQueue h
  | setBegin x => exact run (setBegin_keepsQueue x) h
  | setData x => exact run (setData_keepsQueue x) h
  | setEnd x => exact run (setEnd_keepsQueue x) h
  | setAbort x => exact run (setAbort_keepsQueue x) h
  | setDelete x => exact run (setDelete_keepsQueue x) h
  | setQuery x => exact run setQuery_changesNothing.keepsQueue h
  | memQuery x => exact run memQuery_changesNothing.keepsQueue h
  | jobDefine x => exact run (jobDefine_keepsQueue x) h
  | jobArm x => exact run (jobArm_keepsQueue x) h
  | jobStart x => exact run (jobStart_keepsQueue x) h
  | jobCancel x => exact run (jobCancel_keepsQueue x) h
  | jobDelete x => exact run (jobDelete_keepsQueue x) h
  | jobQuery x => exact run jobQuery_changesNothing.keepsQueue h
  | jobWatch x => exact run (jobWatch_keepsQueue x) h
  | fetch x => exact run (fetchBlock_keepsQueue x) h
  | transmitArbiterChoice p =>
    cases p with
    | u => exact settled_ite (.refl s) h
    | s => cases h; exact (same_startExchange s).keeps.finish
  | transmissionEnd p =>
    cases p with
    | u =>
      simp only [exec, execTransmissionEnd] at h
      split at h <;> cases h
      · rename_i f _
        have h1 : SameSchedule s { s with txU := none } := .of_jobs rfl rfl rfl
        exact (h1.trans (same_noticeSent .u f _)).keeps.finish
      · exact .refl s
    | s => exact settled_ite (same_endS s).keeps h
  | noticeTimerExpiry x =>
    exact settled_timed (due := fun s => (s.session x).timer) (keepsQueue_expire x) h
  | framingError counted =>
    cases h
    have h1 : SameSchedule s { breakPartial .u s with urx := .atSpace (spaceSince counted s) s.ms } :=
      (same_breakPartial .u s).trans (.of_jobs rfl rfl rfl)
    exact h1.keeps.finish
  | interByteGap => exact settled_timed (act := dropPartial .u) (fun _ => .of_jobs rfl rfl rfl) h
  | linkReset => exact settled_timed keepsQueue_linkReset h
  | deselect =>
    have h1 : SameSchedule s (deselect (endS s)) := (same_endS s).trans (.of_jobs rfl rfl rfl)
    exact settled_ite (h1.trans (same_breakPartial .s _)).keeps h
  | byteDelivered p b => cases h; exact settled_hear p b s

/-- Each step is one happening, a tick of the millisecond timer, or nothing. -/
theorem step_settled {s t : State} (h : step s = .next t) : KeepsSettled s t := by
  unfold step at h
  split at h
  · rename_i c rest _
    have h1 : KeepsSettled s { s with pending := rest } := .of_jobs rfl rfl rfl id
    exact h1.trans (exec_settled h)
  · unfold idle at h
    split at h
    · exact exec_settled h
    · cases h
      exact .of_jobs rfl rfl rfl id

/-- Settles O48: a happening keeps the law of the queue, and the start step at its end restores the rest. -/
theorem stepKeepsTheSchedulerLaw : Obligations.StepKeepsTheSchedulerLaw :=
  fun _ _ hs h => (step_settled h).scheduler hs

/-- Settles O59: the scheduler is settled by its law, and port U by its asking at the end of a happening. -/
theorem stepLeavesASettledState : Obligations.StepLeavesASettledState :=
  fun _ _ hs hq h => ⟨((step_settled h).scheduler hs).settled, (step_settled h).portU hq.2⟩

end Sys2Proof.Machine
end

section
/-! SUPPORT. The arithmetic of a run, its segment end and its run end (03 R56 to R65, 04 R76, R83). -/

namespace Sys2Proof.Machine

/-! ### Products (03 R59) -/

/-- The sample of an ACTIVE ring (01 R3). -/
theorem sampleAt_active {s : State} {r : RingId} {g : Ring} (h : s.ring r = some g) (i : Nat) :
    sampleAt s r i = s.readSample (g.base + i % g.capacity) := by simp [sampleAt, h]

/-- The coefficient of a set (06 R105). -/
theorem coefAt_set {s : State} {c : SetId} {v : CoefSet} (h : s.coef c = some v) (k : Nat) :
    coefAt s c k = s.readCoef (v.base + k) := by simp [coefAt, h]

/-- The products of a run as a fold over the indices from the next one on (03 R59). -/
theorem addProducts_eq_foldl (s : State) (b : Job) (n : Nat) (run : Run) :
    addProducts s b n run = (List.range n).foldl (fun a i =>
      addProduct (sampleAt s b.ring (b.windowStart + (run.next + i))) (coefAt s b.set (run.next + i)) a)
      run := by
  induction n with
  | zero => rfl
  | succ n ih =>
    rw [addProducts_add, List.range_succ, List.foldl_append, ← ih]
    simp only [addProducts, (addProducts_next s b n run).1, List.foldl_cons, List.foldl_nil]

/-! ### The limits (03 R59, R63) -/

theorem clampAcc_spec (a : Int) :
    (-2 ^ 47 ≤ a → a ≤ 2 ^ 47 - 1 → clampAcc a = (a, false)) ∧
    (2 ^ 47 - 1 < a → clampAcc a = (2 ^ 47 - 1, true)) ∧
    (a < -2 ^ 47 → clampAcc a = (-2 ^ 47, true)) := by
  unfold clampAcc Config.accMax Config.accMin
  refine ⟨fun hl hu => ?_, fun h => ?_, fun h => ?_⟩
  · rw [if_neg (by omega), if_neg (by omega)]
  · rw [if_pos (by omega)]
    rfl
  · rw [if_neg (by omega), if_pos (by omega)]
    rfl

theorem clampValue_spec (v : Int) :
    (-2 ^ 31 ≤ v → v ≤ 2 ^ 31 - 1 → clampValue v = (v, false)) ∧
    (2 ^ 31 - 1 < v → clampValue v = (2 ^ 31 - 1, true)) ∧
    (v < -2 ^ 31 → clampValue v = (-2 ^ 31, true)) := by
  unfold clampValue Config.valueMax Config.valueMin
  refine ⟨fun hl hu => ?_, fun h => ?_, fun h => ?_⟩
  · rw [if_neg (by omega), if_neg (by omega)]
  · rw [if_pos (by omega)]
    rfl
  · rw [if_neg (by omega), if_pos (by omega)]
    rfl

/-- The rounding shift is the greatest integer not above `(a + 2 ^ (n - 1)) / 2 ^ n` (03 R63). -/
theorem roundShift_bounds (a : Int) {n : Nat} (hn : 1 ≤ n) :
    roundShift a n * 2 ^ n ≤ a + 2 ^ (n - 1) ∧ a + 2 ^ (n - 1) < (roundShift a n + 1) * 2 ^ n := by
  obtain ⟨m, rfl⟩ := Nat.exists_eq_add_of_le' hn
  have hpos : (0 : Int) < 2 ^ (m + 1) := by positivity
  exact ⟨Int.ediv_mul_le _ hpos.ne', Int.lt_ediv_add_one_mul_self _ hpos⟩

/-- Settles O30: the clamps by their three ranges, the products as a fold over their indices, the rounding
shift by the bounds of the division. -/
theorem runArithmeticRoundsAndClamps : Obligations.RunArithmeticRoundsAndClamps := by
  refine ⟨fun x c run => ⟨rfl, rfl, ?clamp⟩, fun s b g v n run hg hv => ?products,
    fun a => rfl, fun a n => roundShift_bounds a, clampValue_spec⟩
  case clamp =>
    obtain ⟨exact, above, below⟩ := clampAcc_spec (run.acc + x.toInt * c.toInt)
    exact ⟨fun hl hu => by simp [addProduct, exact hl hu], fun h => by simp [addProduct, above h],
      fun h => by simp [addProduct, below h]⟩
  case products => simp only [addProducts_eq_foldl, sampleAt_active hg, coefAt_set hv]

/-! ### The segment end (03 R60 to R62) -/

theorem inFlightRun_eq {s : State} {run : Run} {b : Job} (hp : s.psu = some run)
    (hb : s.job run.job = some b) : inFlightRun s = some (run, b) := by simp [inFlightRun, hp, hb]

theorem hasSegmentEnd_iff {b : Job} {run : Run} :
    hasSegmentEnd b run = true ↔ b.par.mode = .segmented ∧ run.next + 64 < b.par.length := by
  simp [hasSegmentEnd]

theorem higherWaiting_iff {c : ClassId} {s : State} :
    higherWaiting c s = true ↔ ∃ d, c < d ∧ s.cls d ≠ [] := by
  have hmem : ∀ d : ClassId, d ∈ [0, 1, 2, 3] := by decide
  simp only [higherWaiting, List.any_eq_true, Bool.and_eq_true, decide_eq_true_eq, Bool.not_eq_true',
    List.isEmpty_eq_false_iff]
  exact ⟨fun ⟨d, _, h⟩ => ⟨d, h⟩, fun ⟨d, h⟩ => ⟨d, hmem d, h⟩⟩

/-- A segment end with every higher class empty lets the run go on (03 R61). -/
theorem segmentEnd_goes_on {s : State} {b : Job} {run : Run}
    (h : ∀ d, b.par.priority < d → s.cls d = []) :
    segmentEnd b run s = { s with psu := some (addProducts s b 64 run) } := by
  have hw : higherWaiting b.par.priority s = false :=
    Bool.eq_false_iff.mpr fun hw => by
      obtain ⟨d, hd, hne⟩ := higherWaiting_iff.mp hw
      exact hne (h d hd)
  simp [segmentEnd, hw]

/-- A segment end with a job in a higher class parks the run (03 R61, R62). -/
theorem segmentEnd_parks {s : State} {b : Job} {run : Run}
    (h : ∃ d, b.par.priority < d ∧ s.cls d ≠ []) :
    segmentEnd b run s = park b (addProducts s b 64 run) s := by
  simp [segmentEnd, higherWaiting_iff.mpr h]

theorem exec_segmentEnd {s : State} {run : Run} {b : Job} (hp : s.psu = some run)
    (hb : s.job run.job = some b) (h : hasSegmentEnd b run = true) :
    exec .segmentEnd s = .next (finish (segmentEnd b run s)) := by
  simp [exec, execSegmentEnd, inFlightRun_eq hp hb, h]

/-- Settles O31: the start step by the lemmas of its two starts, the segment end by whether a higher class
waits. -/
theorem segmentEndParksForAHigherClass : Obligations.SegmentEndParksForAHigherClass := by
  refine ⟨fun s => ⟨?idle, fun c j rest b hp hcls hi hb =>
    ⟨startStep_ready hp hcls hi hb, fun p => startStep_parked hp hcls hi hb⟩⟩,
    fun s run b hp hb hmode hnext => ?segment⟩
  case idle =>
    rintro (hbusy | hempty)
    · obtain ⟨run, hrun⟩ := Option.ne_none_iff_exists'.mp hbusy
      exact startStep_busy hrun
    · exact startStep_empty hempty
  case segment =>
    have hexec := exec_segmentEnd hp hb (hasSegmentEnd_iff.mpr ⟨hmode, hnext⟩)
    refine ⟨fun h => ?_, fun h => ?_⟩
    · rw [hexec, segmentEnd_goes_on h]
    · rw [hexec, segmentEnd_parks h, park, (addProducts_next s b 64 run).2]
      rfl

/-! ### The run end (03 R63 to R65) -/

theorem exec_runEnd {s : State} {run : Run} {b : Job} (hp : s.psu = some run)
    (hb : s.job run.job = some b) (h : hasSegmentEnd b run = false) :
    exec .runEnd s = .next (finish (runEnd b run s)) := by
  simp [exec, execRunEnd, inFlightRun_eq hp hb, h]

/-- Two changes that agree on a session's record agree on the state. -/
theorem modSession_congr {s : State} {x : Port} {f g : Session → Session}
    (h : f (s.session x) = g (s.session x)) : s.modSession x f = s.modSession x g := by
  rw [State.modSession, State.modSession, h]

/-- A result that finds room is queued, its job takes its return state, and a RESULTS entry is made when the
queue was empty, notifying is on and none is pending (04 R76, R83). -/
theorem postResult_queues {j : JobId} {b : Job} {r : Record} {s : State}
    (h : (s.session b.owner).results.length < 32) :
    postResult j b r s =
      (s.putJob j (some { b with state := b.returnState })).modSession b.owner fun z => { z with
        results := z.results ++ [r]
        pendingList :=
          if z.results.isEmpty ∧ z.resultsNotify ∧ ¬ z.pendingList.any Entry.isResults then
            z.pendingList ++ [Entry.results]
          else z.pendingList } := by
  have hres : ∀ l : List Record, (l ++ [r]).isEmpty = false := fun l => by simp
  simp only [postResult, if_pos h, resultsCheck_eq, State.session_modSession, State.session_putJob, if_true,
    hres, Bool.false_eq_true, if_false]
  split
  · rename_i hnew
    rw [modSession_modSession]
    exact modSession_congr (by rw [State.session_putJob, if_pos hnew])
  · rename_i hold
    exact modSession_congr (by rw [State.session_putJob, if_neg hold])

/-- A result that finds the queue full is held (04 R76). -/
theorem postResult_holds {j : JobId} {b : Job} {r : Record} {s : State}
    (h : 32 ≤ (s.session b.owner).results.length) :
    postResult j b r s = (s.putJob j (some { b with state := .held r })).modSession b.owner fun z =>
      { z with heldOrder := z.heldOrder ++ [j] } := by
  simp only [postResult, if_neg (Nat.not_lt.mpr h)]

/-- Two changes of a session's record, one on each side of a job's, are one. -/
theorem modSession_putJob_modSession (s : State) (x : Port) (j : JobId) (v : Option Job)
    (f g : Session → Session) : ((s.modSession x f).putJob j v).modSession x g =
      (s.putJob j v).putSession x (g (f (s.session x))) := by
  cases x <;> rfl

/-- Settles O32: the record enters the result unit, which queues or holds it by the room in the queue. -/
theorem runEndQueuesOrHoldsTheRecord : Obligations.RunEndQueuesOrHoldsTheRecord := by
  intro s run b hp hb hmode a v rec_ z w l b'
  have hseg : hasSegmentEnd b run = false := Bool.eq_false_iff.mpr fun h => by
    obtain ⟨hm, hn⟩ := hasSegmentEnd_iff.mp h
    rcases hmode with hw | hl
    · rw [hw] at hm; cases hm
    · omega
  have hrec : formRecord b a = rec_ := by
    unfold formRecord
    rw [(addProducts_next s b _ run).2]
  have hwatch : watchStep run.job rec_ b (s.session b.owner).pendingList = (w, l) := by
    unfold watchStep
    simp only [w, l]
    cases b.watch <;> rfl
  have hrun : runEnd b run s =
      postResult run.job b' rec_ ({ s with psu := none }.modSession b.owner fun z =>
        { z with pendingList := l }) := by
    unfold runEnd
    rw [hrec]
    simp only [hwatch]
    rfl
  have hres : (State.session ({ s with psu := none }.modSession b.owner fun z =>
      { z with pendingList := l }) b'.owner).results = z.results := by
    rw [State.session_modSession, if_pos rfl]
    rfl
  rw [exec_runEnd hp hb hseg, hrun]
  refine ⟨fun h => ?_, fun h => ?_⟩
  · rw [postResult_queues (hres ▸ h), modSession_putJob_modSession]
    rfl
  · rw [postResult_holds (hres ▸ h), modSession_putJob_modSession]
    rfl

end Sys2Proof.Machine
end

section
/-! SUPPORT. The move of held records, and FETCH, which makes room for it (04 R77 to R80, R84). -/

namespace Sys2Proof.Machine

/-! ### The move of held records (04 R78) -/

/-- The result that a job holds in a state (02 Table 2-2). -/
def JobState.holds : JobState → Option Record
  | .held r => some r
  | _ => none

theorem JobState.holds_eq_some {st : JobState} {r : Record} : st.holds = some r ↔ st = .held r := by
  cases st <;> simp [JobState.holds]

/-- The result that the job with an id holds. -/
def heldRecord (s : State) (j : JobId) : Option Record :=
  match s.job j with
  | some b => b.state.holds
  | none => none

/-- One held record moves: the queue takes it, and its job goes to its return state (04 R78). -/
theorem moveHeld_of_held {x : Port} {j : JobId} {rest : List JobId} {s : State} {b : Job} {r : Record}
    (hb : s.job j = some b) (hr : b.state = .held r) : moveHeld x j rest s =
      (s.modSession x fun z => { z with heldOrder := rest, results := z.results ++ [r] }).putJob j
        (some { b with state := b.returnState }) := by
  simp only [moveHeld, hb, hr]

/-- The job table after a move of held records: the jobs that moved are at their return states. -/
structure Returned (moved : List JobId) (s : State) (jobs : Table (Option Job) 32) : Prop where
  back : ∀ j b, j ∈ moved → s.job j = some b → jobs.look j = some { b with state := b.returnState }
  stay : ∀ j, j ∉ moved → jobs.look j = s.job j

theorem Returned.nil (s : State) : Returned [] s s.jobs := ⟨by simp, fun _ _ => rfl⟩

/-- A move that moves nothing. -/
theorem moved_nothing (x : Port) (s : State) :
    s = { s with jobs := s.jobs }.modSession x fun z =>
      { z with heldOrder := (s.session x).heldOrder, results := z.results ++ [] } :=
  (modSession_same (by simp [State.session])).symm

/-- The move goes on from a state in which one record has moved. -/
theorem moved_on (x : Port) (j : JobId) (v : Option Job) (jobs : Table (Option Job) 32)
    (f g : Session → Session) (s : State) :
    { (s.modSession x f).putJob j v with jobs := jobs }.modSession x g =
      { s with jobs := jobs }.modSession x fun z => g (f z) := by
  cases x <;> rfl

/-- With room for `n` records the move takes the first `n` jobs of the list (04 R78). -/
theorem heldMoves_eq (x : Port) (l : List JobId) (n : Nat) (s : State) (hl : l.Nodup)
    (hs : (s.session x).heldOrder = l) (hn : 32 - (s.session x).results.length = n)
    (hheld : ∀ j ∈ l, ∃ b r, s.job j = some b ∧ b.state = .held r) :
    ∃ jobs, heldMoves x l s = { s with jobs := jobs }.modSession x (fun z => { z with
        heldOrder := l.drop n, results := z.results ++ (l.take n).filterMap (heldRecord s) }) ∧
      Returned (l.take n) s jobs := by
  induction l generalizing s n with
  | nil => exact ⟨s.jobs, by simpa [heldMoves, hs] using moved_nothing x s, by simpa using .nil s⟩
  | cons j rest ih =>
    cases n with
    | zero =>
      have hfull : ¬ (s.session x).results.length < 32 := by omega
      rw [heldMoves, if_neg hfull]
      exact ⟨s.jobs, by simpa [hs] using moved_nothing x s, .nil s⟩
    | succ n =>
      obtain ⟨hj, hrest⟩ := List.nodup_cons.mp hl
      obtain ⟨b, r, hb, hr⟩ := hheld j List.mem_cons_self
      have hne : ∀ k ∈ rest, k ≠ j := fun k hk e => hj (e ▸ hk)
      have hmove := moveHeld_of_held (x := x) (rest := rest) hb hr
      obtain ⟨jobs, heq, hjobs⟩ := ih n (moveHeld x j rest s) hrest (by simp [hmove])
        (by simp [hmove]; omega)
        fun k hk => by simpa [hmove, hne k hk] using hheld k (List.mem_cons_of_mem j hk)
      have hrec : ∀ k ∈ rest.take n, heldRecord (moveHeld x j rest s) k = heldRecord s k :=
        fun k hk => by simp [heldRecord, hmove, hne k (List.mem_of_mem_take hk)]
      have hroom : (s.session x).results.length < 32 := by omega
      refine ⟨jobs, ?_, ⟨fun k c hk hc => ?_, fun k hk => ?_⟩⟩
      · rw [heldMoves, if_pos hroom, heq, List.take_succ_cons,
          List.filterMap_cons_some (b := r) (by simp [heldRecord, hb, hr, JobState.holds]),
          List.filterMap_congr hrec, hmove, moved_on]
        simp
      · rw [List.take_succ_cons, List.mem_cons] at hk
        by_cases hkj : k = j
        · subst hkj
          cases hb.symm.trans hc
          rw [hjobs.stay k fun h => hj (List.mem_of_mem_take h), hmove, State.job_putJob, if_pos rfl]
        · exact hjobs.back k c (hk.resolve_left hkj) (by simpa [hmove, hkj] using hc)
      · rw [List.take_succ_cons, List.mem_cons, not_or] at hk
        rw [hjobs.stay k hk.2, hmove, State.job_putJob, if_neg hk.1, State.job_modSession]

/-- Settles O34: the move by `heldMoves_eq`, whose room counts only as far as the list goes. -/
theorem heldRecordsMoveInRunEndOrder : Obligations.HeldRecordsMoveInRunEndOrder := by
  intro s x hnodup hheld k moved
  obtain ⟨jobs, heq, hjobs⟩ := heldMoves_eq x _ _ s hnodup rfl rfl hheld
  rw [List.take_eq_take_min] at heq hjobs
  rw [List.drop_eq_drop_min] at heq
  exact ⟨jobs, heq.trans (modSession_congr rfl), hjobs.back, hjobs.stay⟩

/-! ### FETCH (04 R79, R80, R84) -/

/-- The RESULTS check after records have left a queue, where an empty one is left empty, only ever withdraws
(04 R84). -/
theorem resultsCheck_withdraws {x : Port} {before : List Record} {s : State}
    (h : before = [] → (s.session x).results = []) : resultsCheck x before s =
      s.modSession x fun z => { z with
        pendingList := if z.results.isEmpty then z.pendingList.filter fun e => !e.isResults
          else z.pendingList } := by
  rw [resultsCheck_eq]
  by_cases he : (s.session x).results.isEmpty = true
  · rw [if_pos he]
    exact modSession_congr (by simp only [he, if_true, withdrawResults])
  · have hold : ¬ before.isEmpty = true := fun hb => he (by simp [h (List.isEmpty_iff.mp hb)])
    rw [if_neg he, if_neg fun hnew => hold hnew.1, modSession_same (by simp only [he]; rfl)]

/-- The state of a FETCH before its RESULTS check: the oldest records are gone, and held ones have moved in when
any went (04 R79). -/
def fetched (x : Port) (k : Nat) (s : State) : State :=
  let s1 := s.modSession x fun z => { z with results := (s.session x).results.drop k }
  if (s.session x).results.take k = [] then s1 else heldMove x s1

theorem removeOldest_eq (x : Port) (k : Nat) (s : State) : removeOldest x k s =
    (fetched x k s).modSession x fun z => { z with
      pendingList := if z.results.isEmpty then z.pendingList.filter fun e => !e.isResults
        else z.pendingList } := by
  have hnone : 0 < min k (s.session x).results.length ↔ ¬ (s.session x).results.take k = [] := by
    rw [← List.length_take, List.length_pos_iff]
  have hsame : removeOldest x k s = resultsCheck x (s.session x).results (fetched x k s) := by
    simp only [removeOldest, fetched, hnone, ite_not]
  rw [hsame]
  exact resultsCheck_withdraws fun h => by simp [fetched, h]

theorem removeOldest_takeCommand (x y : Port) (l : List Command) (k : Nat) (s : State) :
    removeOldest y k (takeCommand x l s) = takeCommand x l (removeOldest y k s) := by
  unfold removeOldest
  simp only [results_takeCommand]
  rw [modSession_takeCommand x y l (fun _ _ => rfl)]
  split
  · rw [heldMove_takeCommand, resultsCheck_takeCommand]
  · rw [resultsCheck_takeCommand]

theorem fetchBlock_refuses {x : Port} {count : Byte} {s : State} (h : count = 0 ∨ 16 < count.toNat) :
    fetchBlock x [count] s = some { state := s, status := .badArg, data := zeros 3 } := by
  have hbad : count.toNat = 0 ∨ Config.maxFetch < count.toNat := h.imp_left (by rintro rfl; rfl)
  simp only [fetchBlock, if_pos hbad]

theorem fetchBlock_removes {x : Port} {count : Byte} {s : State} (h0 : count ≠ 0)
    (h16 : count.toNat ≤ 16) : fetchBlock x [count] s = some
      { state := removeOldest x count.toNat s
        status := .ok
        data := BitVec.ofNat 8 ((s.session x).results.take count.toNat).length ::
          ((s.session x).results.take count.toNat).flatMap Record.bytes ++
          [BitVec.ofNat 8 ((removeOldest x count.toNat s).session x).results.length,
            BitVec.ofNat 8 ((removeOldest x count.toNat s).session x).heldOrder.length] } := by
  have hgood : ¬ (count.toNat = 0 ∨ Config.maxFetch < count.toNat) := by
    rintro (h | h)
    · exact h0 (BitVec.eq_of_toNat_eq h)
    · exact absurd h (Nat.not_lt.mpr h16)
  simp only [fetchBlock, if_neg hgood]

/-- Settles O35: the count's check, and the removal by `removeOldest_eq`. -/
theorem fetchRemovesTheOldestRecords : Obligations.FetchRemovesTheOldestRecords := by
  intro s x q count rest h
  refine ⟨fun hbad => ?_, fun h0 h16 => ?_⟩
  · exact congrArg Host.Outcome.next
      (runCommand_answered h (fetchBlock_refuses (s := takeCommand x rest s) hbad))
  · intro old taken s1 s2 left s3
    have hact := fetchBlock_removes (x := x) (s := takeCommand x rest s) h0 h16
    have hs3 : removeOldest x count.toNat s = s3 := removeOldest_eq x count.toNat s
    have hleft : (s3.session x).results = left := by simp [s3, left]
    have hheld : (s3.session x).heldOrder = (s2.session x).heldOrder := by simp [s3]
    rw [removeOldest_takeCommand, hs3] at hact
    simp only [results_takeCommand, heldOrder_takeCommand, hleft, hheld] at hact
    exact congrArg Host.Outcome.next (runCommand_answered h hact)

end Sys2Proof.Machine
end

section
/-! SUPPORT. The laws of result queues and held order lists in terms of what each job claims, and what the result
unit's own operations make of them (04 R74 to R81). -/

namespace Sys2Proof.Machine

/-! ### The laws -/

/-- What the result unit sees of a job: its session, and the result it holds (04 R77). -/
def Job.claim (b : Job) : Port × Option Record := (b.owner, b.state.holds)

/-- What the result unit sees of the job with an id; nothing of an EMPTY record. -/
def claim (j : JobId) (s : State) : Option (Port × Option Record) := (s.job j).map Job.claim

theorem claim_of_job {s : State} {j : JobId} {b : Job} (hb : s.job j = some b) :
    claim j s = some b.claim := by simp [claim, hb]

@[simp] theorem claim_putJob (s : State) (j k : JobId) (v : Option Job) :
    claim k (s.putJob j v) = if k = j then v.map Job.claim else claim k s := by
  unfold claim
  rw [State.job_putJob]
  split <;> rfl

@[simp] theorem claim_modSession (s : State) (x : Port) (f : Session → Session) (k : JobId) :
    claim k (s.modSession x f) = claim k s := rfl

theorem claim_eq_some {s : State} {j : JobId} {x : Port} {v : Option Record} :
    claim j s = some (x, v) ↔ ∃ b, s.job j = some b ∧ b.owner = x ∧ b.state.holds = v := by
  simp [claim, Job.claim]

/-- A job at its return state holds no result. -/
@[simp] theorem Job.holds_returnState (b : Job) : b.returnState.holds = none := by
  unfold Job.returnState
  split <;> rfl

/-- Each list holds the HELD jobs of its session once, each queued record is of a job of its session, and no
job is listed or queued but the `live` ones: those that are not being deleted (04 R75, R77). -/
structure Listed (live : JobId → Prop) (s : State) : Prop where
  nodup : ∀ x, (s.session x).heldOrder.Nodup
  listed : ∀ x j, j ∈ (s.session x).heldOrder ↔ live j ∧ ∃ r, claim j s = some (x, some r)
  named : ∀ j x r, claim j s = some (x, some r) → r.job = j
  owned : ∀ x r, r ∈ (s.session x).results → live r.job ∧ ∃ v, claim r.job s = some (x, v)

/-- Jobs are HELD only while the queue of their session is full (04 R74). -/
def HeldFull (x : Port) (s : State) : Prop :=
  (s.session x).heldOrder ≠ [] → (s.session x).results.length = Config.resultQueueSize

theorem heldLaw_iff (s : State) : HeldLaw s ↔ Listed (fun _ => True) s ∧ ∀ x, HeldFull x s := by
  have held : ∀ x j, (∃ b r, s.job j = some b ∧ b.owner = x ∧ b.state = .held r) ↔
      ∃ r, claim j s = some (x, some r) := fun x j => by
    simp only [claim_eq_some, JobState.holds_eq_some]
    exact exists_comm
  have named : (∀ j b r, s.job j = some b → b.state = .held r → r.job = j) ↔
      ∀ j x r, claim j s = some (x, some r) → r.job = j := by
    simp only [claim_eq_some, JobState.holds_eq_some]
    exact ⟨fun h j _ r ⟨b, hb, _, hr⟩ => h j b r hb hr, fun h j b r hb hr => h j _ r ⟨b, hb, rfl, hr⟩⟩
  have owned : ∀ x j, (∃ b, s.job j = some b ∧ b.owner = x) ↔ ∃ v, claim j s = some (x, v) :=
    fun x j => by simp [claim_eq_some]
  constructor
  · intro h
    exact ⟨⟨h.nodup, fun x j => by rw [h.listed x j, held, true_and], named.mp h.named,
      fun x r hr => ⟨trivial, (owned x _).mp (h.owned x r hr)⟩⟩, h.full⟩
  · rintro ⟨h, hfull⟩
    exact ⟨h.nodup, fun x j => by rw [h.listed x j, held, true_and], named.mpr h.named, hfull,
      fun x r hr => (owned x _).mpr (h.owned x r hr).2⟩

/-- A job is listed by its own session alone. -/
theorem Listed.session_unique {live : JobId → Prop} {s : State} (h : Listed live s) {j : JobId}
    {x y : Port} {v : Option Record} (hc : claim j s = some (x, v))
    (hj : j ∈ (s.session y).heldOrder) : y = x := by
  obtain ⟨-, r, hr⟩ := (h.listed y j).mp hj
  rw [hc] at hr
  cases hr
  rfl

/-! ### Changes of one job -/

/-- One job's claim becomes `v` in session `x`, with the list of that session as `v` has it, and only its own
records are new in the queue. -/
structure Reclaimed (j : JobId) (x : Port) (v : Option Record) (s t : State) : Prop where
  own : ∀ y u, claim j s = some (y, u) → y = x
  claim : ∀ k, claim k t = if k = j then some (x, v) else claim k s
  named : ∀ r, v = some r → r.job = j
  other : ∀ y, y ≠ x → t.session y = s.session y
  nodup : (t.session x).heldOrder.Nodup
  list : ∀ k, k ∈ (t.session x).heldOrder ↔ if k = j then v.isSome = true else k ∈ (s.session x).heldOrder
  results : ∀ r ∈ (t.session x).results, r ∈ (s.session x).results ∨ r.job = j

theorem Reclaimed.listed {live : JobId → Prop} {j : JobId} {x : Port} {v : Option Record} {s t : State}
    (h : Reclaimed j x v s t) (hlive : live j) (hs : Listed live s) : Listed live t := by
  refine ⟨fun y => ?_, fun y k => ?_, fun k y r hr => ?_, fun y r hr => ?_⟩
  · by_cases hy : y = x
    · rw [hy]; exact h.nodup
    · rw [h.other y hy]; exact hs.nodup y
  · rw [h.claim]
    by_cases hk : k = j
    · rw [if_pos hk, hk]
      by_cases hy : y = x
      · rw [hy, h.list, if_pos rfl, Option.isSome_iff_exists]
        simp [hlive]
      · rw [h.other y hy, hs.listed]
        constructor
        · rintro ⟨-, r, hr⟩
          exact absurd (h.own _ _ hr) hy
        · rintro ⟨-, r, hr⟩
          simp [Ne.symm hy] at hr
    · rw [if_neg hk, ← hs.listed]
      by_cases hy : y = x
      · rw [hy, h.list, if_neg hk]
      · rw [h.other y hy]
  · rw [h.claim] at hr
    split at hr
    · rename_i hk
      cases hr
      exact (h.named r rfl).trans hk.symm
    · exact hs.named k y r hr
  · have old : r ∈ (s.session y).results → r.job ≠ j → live r.job ∧ ∃ v, Machine.claim r.job t = some (y, v) := by
      intro hr hj
      rw [h.claim, if_neg hj]
      exact hs.owned y r hr
    by_cases hj : r.job = j
    · rw [hj, h.claim, if_pos rfl]
      refine ⟨hlive, v, ?_⟩
      by_cases hy : y = x
      · rw [hy]
      · rw [h.other y hy] at hr
        obtain ⟨-, u, hu⟩ := hs.owned y r hr
        exact absurd (h.own _ _ (hj ▸ hu)) hy
    · by_cases hy : y = x
      · subst hy
        exact old ((h.results r hr).resolve_right hj) hj
      · rw [h.other y hy] at hr
        exact old hr hj

theorem Reclaimed.heldLaw {j : JobId} {x : Port} {v : Option Record} {s t : State}
    (h : Reclaimed j x v s t) (hs : HeldLaw s) (hx : HeldFull x t) : HeldLaw t := by
  obtain ⟨hlisted, hfull⟩ := (heldLaw_iff s).mp hs
  refine (heldLaw_iff t).mpr ⟨h.listed trivial hlisted, fun y => ?_⟩
  by_cases hy : y = x
  · rw [hy]; exact hx
  · unfold HeldFull
    rw [h.other y hy]
    exact hfull y

/-- A held record that moves leaves the lists lawful (04 R78). -/
theorem Listed.moveHeld {live : JobId → Prop} {x : Port} {j : JobId} {rest : List JobId} {s : State}
    (h : Listed live s) (hl : (s.session x).heldOrder = j :: rest) :
    Listed live (moveHeld x j rest s) ∧ ((moveHeld x j rest s).session x).heldOrder = rest ∧
      ((moveHeld x j rest s).session x).results.length = (s.session x).results.length + 1 ∧
      ∀ y, y ≠ x → (moveHeld x j rest s).session y = s.session y := by
  obtain ⟨hlive, r, hr⟩ := (h.listed x j).mp (hl ▸ List.mem_cons_self)
  obtain ⟨b, hb, rfl, hst⟩ := claim_eq_some.mp hr
  have hn := h.nodup b.owner
  rw [hl, List.nodup_cons] at hn
  rw [moveHeld_of_held hb (JobState.holds_eq_some.mp hst)]
  have hmoved : Reclaimed j b.owner none s
      ((s.modSession b.owner fun z => { z with heldOrder := rest, results := z.results ++ [r] }).putJob j
        (some { b with state := b.returnState })) := by
    refine ⟨fun y u hu => ?_, fun k => ?_, nofun, fun y hy => ?_, ?_, fun k => ?_, fun r' hr' => ?_⟩
    · rw [hr] at hu; cases hu; rfl
    · simp [Job.claim]
    · simp [hy]
    · simpa using hn.2
    · by_cases hk : k = j
      · simpa [hk] using hn.1
      · simp [hk, hl]
    · simp only [State.session_putJob, State.session_modSession, if_true, List.mem_append,
        List.mem_singleton] at hr'
      exact hr'.imp_right (by rintro rfl; exact h.named j _ _ hr)
  exact ⟨hmoved.listed hlive h, by simp, by simp, hmoved.other⟩

/-- The move of held records leaves the lists lawful, and its session's list empty or its queue full. -/
theorem Listed.heldMoves {live : JobId → Prop} {x : Port} (l : List JobId) {s : State}
    (h : Listed live s) (hl : (s.session x).heldOrder = l)
    (hlen : l ≠ [] → (s.session x).results.length ≤ Config.resultQueueSize) :
    Listed live (heldMoves x l s) ∧ HeldFull x (heldMoves x l s) ∧
      ∀ y, y ≠ x → (heldMoves x l s).session y = s.session y := by
  induction l generalizing s with
  | nil => exact ⟨h, fun hne => absurd hl hne, fun _ _ => rfl⟩
  | cons j rest ih =>
    have hlen := hlen (List.cons_ne_nil j rest)
    rw [Machine.heldMoves]
    split
    · rename_i hroom
      obtain ⟨h1, hl1, hlen1, hother1⟩ := h.moveHeld hl
      obtain ⟨h2, hfull, hother2⟩ := ih h1 hl1 fun _ => by omega
      exact ⟨h2, hfull, fun y hy => (hother2 y hy).trans (hother1 y hy)⟩
    · exact ⟨h, fun _ => by omega, fun _ _ => rfl⟩

/-! ### What leaves every claim -/

/-- Every session's queue and list and every job's claim are the same. -/
structure SameClaims (s t : State) : Prop where
  results : ∀ x, (t.session x).results = (s.session x).results
  heldOrder : ∀ x, (t.session x).heldOrder = (s.session x).heldOrder
  claim : ∀ j, claim j t = claim j s

theorem SameClaims.refl (s : State) : SameClaims s s := ⟨fun _ => rfl, fun _ => rfl, fun _ => rfl⟩

theorem SameClaims.trans {s t u : State} (h : SameClaims s t) (h' : SameClaims t u) : SameClaims s u :=
  ⟨fun x => (h'.results x).trans (h.results x), fun x => (h'.heldOrder x).trans (h.heldOrder x),
    fun j => (h'.claim j).trans (h.claim j)⟩

theorem SameClaims.foldl {α : Type} {f : State → α → State} (h : ∀ s a, SameClaims s (f s a))
    (l : List α) (s : State) : SameClaims s (l.foldl f s) := by
  induction l generalizing s with
  | nil => exact .refl s
  | cons a l ih => exact (h s a).trans (ih _)

/-- Jobs and sessions are the same. -/
theorem SameClaims.of_records {s t : State} (hj : t.jobs = s.jobs) (hs : t.sessions = s.sessions) :
    SameClaims s t := by
  have session : ∀ x, t.session x = s.session x := fun x => congrArg (Pair.look · x) hs
  exact ⟨fun x => by rw [session], fun x => by rw [session],
    fun j => congrArg (fun u => (Table.look u j).map Job.claim) hj⟩

theorem RingsOnly.sameClaims {s t : State} (e : RingsOnly s t) : SameClaims s t :=
  .of_records e.jobs e.sessions

theorem SetsOnly.sameClaims {s t : State} (e : SetsOnly s t) : SameClaims s t :=
  .of_records e.jobs e.sessions

/-- One session's record changes, beside its result queue and held order list. -/
theorem SameClaims.modSession {s : State} {x : Port} {f : Session → Session}
    (hr : (f (s.session x)).results = (s.session x).results)
    (hl : (f (s.session x)).heldOrder = (s.session x).heldOrder) : SameClaims s (s.modSession x f) := by
  refine ⟨fun y => ?_, fun y => ?_, fun j => rfl⟩ <;>
  · rw [State.session_modSession]
    split
    · rename_i hy
      rwa [hy]
    · rfl

/-- One job's record changes, beside its owner and the result it holds. -/
theorem SameClaims.putJob {s : State} {j : JobId} {b c : Job} (hb : s.job j = some b)
    (ho : c.owner = b.owner) (hh : c.state.holds = b.state.holds) :
    SameClaims s (s.putJob j (some c)) := by
  refine ⟨fun _ => rfl, fun _ => rfl, fun k => ?_⟩
  rw [claim_putJob]
  split
  · rename_i hk
    rw [hk, claim_of_job hb]
    simp [Job.claim, ho, hh]
  · rfl

theorem SameClaims.listed {live : JobId → Prop} {s t : State} (h : SameClaims s t) (hs : Listed live s) :
    Listed live t := by
  obtain ⟨h1, h2, h3, h4⟩ := hs
  constructor <;> simpa only [h.results, h.heldOrder, h.claim]

theorem SameClaims.heldFull {x : Port} {s t : State} (h : SameClaims s t) (hs : HeldFull x s) :
    HeldFull x t := by
  unfold HeldFull
  rw [h.results, h.heldOrder]
  exact hs

/-- If the first state meets the law, so does the second. -/
def KeepsHeld (s t : State) : Prop := HeldLaw s → HeldLaw t

theorem KeepsHeld.refl (s : State) : KeepsHeld s s := id

theorem KeepsHeld.trans {s t u : State} (h : KeepsHeld s t) (h' : KeepsHeld t u) : KeepsHeld s u :=
  h' ∘ h

theorem KeepsHeld.foldl {α : Type} {f : State → α → State} (h : ∀ s a, KeepsHeld s (f s a))
    (l : List α) (s : State) : KeepsHeld s (l.foldl f s) := by
  induction l generalizing s with
  | nil => exact .refl s
  | cons a l ih => exact (h s a).trans (ih _)

theorem SameClaims.keeps {s t : State} (h : SameClaims s t) : KeepsHeld s t := fun hs => by
  rw [heldLaw_iff] at hs ⊢
  exact ⟨h.listed hs.1, fun x => h.heldFull (hs.2 x)⟩

/-! ### Removal and refill (04 R78, R79, R81) -/

/-- Jobs and records that go are out of every list and queue, in which nothing else changes. -/
structure Removed (live : JobId → Prop) (s t : State) : Prop where
  claim : ∀ j, claim j t = claim j s
  list : ∀ x j, j ∈ (t.session x).heldOrder ↔ j ∈ (s.session x).heldOrder ∧ live j
  nodup : ∀ x, (s.session x).heldOrder.Nodup → (t.session x).heldOrder.Nodup
  results : ∀ x r, r ∈ (t.session x).results → r ∈ (s.session x).results ∧ live r.job

theorem Removed.listed {live : JobId → Prop} {s t : State} (h : Removed live s t)
    (hs : Listed (fun _ => True) s) : Listed live t := by
  refine ⟨fun x => h.nodup x (hs.nodup x), fun x j => ?_, fun j x r hr => ?_, fun x r hr => ?_⟩
  · rw [h.list, hs.listed, h.claim]
    simp [and_comm]
  · rw [h.claim] at hr
    exact hs.named j x r hr
  · obtain ⟨hold, hlive⟩ := h.results x r hr
    rw [h.claim]
    exact ⟨hlive, (hs.owned x _ hold).2⟩

/-- After a removal the move fills up the queue that lost records, so that jobs are HELD only while it is full. -/
theorem Removed.refill {live : JobId → Prop} {p : Prop} [Decidable p] {x : Port} {s t : State}
    (h : Removed live s t) (hs : HeldLaw s)
    (hle : (t.session x).results.length ≤ (s.session x).results.length)
    (hother : ∀ y, y ≠ x → (t.session y).results.length = (s.session y).results.length)
    (hnone : ¬ p → (t.session x).results.length = (s.session x).results.length) :
    Listed live (if p then heldMove x t else t) ∧ ∀ y, HeldFull y (if p then heldMove x t else t) := by
  obtain ⟨hlisted, hfull⟩ := (heldLaw_iff s).mp hs
  have hne : ∀ y, (t.session y).heldOrder ≠ [] → (s.session y).heldOrder ≠ [] := fun y hy => by
    obtain ⟨j, hj⟩ := List.exists_mem_of_ne_nil _ hy
    exact List.ne_nil_of_mem ((h.list y j).mp hj).1
  have stays : ∀ y, (t.session y).results.length = (s.session y).results.length → HeldFull y t :=
    fun y hy hl => hy.trans (hfull y (hne y hl))
  split
  · obtain ⟨h1, h2, h3⟩ := (h.listed hlisted).heldMoves (x := x) _ rfl
      fun hl => hle.trans (hfull x (hne x hl)).le
    refine ⟨h1, fun y => ?_⟩
    by_cases hy : y = x
    · rw [hy]; exact h2
    · unfold HeldFull heldMove
      rw [h3 y hy]
      exact stays y (hother y hy)
  · rename_i hp
    refine ⟨h.listed hlisted, fun y => stays y ?_⟩
    by_cases hy : y = x
    · rw [hy]; exact hnone hp
    · exact hother y hy

end Sys2Proof.Machine
end

section
/-! SUPPORT. The operations of the result unit, the scheduler, the objects and the teardown keep the laws of result
queues and held order lists: most leave every claim, and what removes records refills their queue (01 to 04, 08
R149). -/

namespace Sys2Proof.Machine

/-! ### What a job holds -/

theorem heldRecord_eq (s : State) (j : JobId) : heldRecord s j = (claim j s).bind Prod.snd := by
  unfold heldRecord claim
  cases s.job j <;> rfl

theorem heldRecord_of_job {s : State} {j : JobId} {b : Job} (hb : s.job j = some b) :
    heldRecord s j = b.state.holds := by simp [heldRecord, hb]

theorem SameClaims.heldRecord {s t : State} (h : SameClaims s t) (j : JobId) :
    heldRecord t j = heldRecord s j := by rw [heldRecord_eq, heldRecord_eq, h.claim]

/-- A job that pins a window holds no result (02 Table 2-2). -/
theorem JobState.holds_of_pins {st : JobState} (h : st.pins = true) : st.holds = none := by
  cases st with
  | ready | running | parked _ => rfl
  | defined | armed | held _ => cases h

/-- A job that holds no result stands in no held order list (04 R77). -/
theorem Listed.not_mem {live : JobId → Prop} {s : State} (h : Listed live s) {j : JobId}
    (hn : Machine.heldRecord s j = none) (x : Port) : j ∉ (s.session x).heldOrder := fun hj => by
  obtain ⟨-, r, hr⟩ := (h.listed x j).mp hj
  simp [heldRecord_eq, hr] at hn

/-! ### The result unit (04) -/

theorem claims_resultsCheck (x : Port) (before : List Record) (s : State) :
    SameClaims s (resultsCheck x before s) := by
  rw [resultsCheck_eq]
  split
  · exact .modSession rfl rfl
  · split
    · exact .modSession rfl rfl
    · exact .refl s

/-- FETCH takes records from the head of the queue, and the move refills it (04 R78, R79). -/
theorem keepsHeld_removeOldest (x : Port) (k : Nat) (s : State) : KeepsHeld s (removeOldest x k s) := by
  intro hs
  have hremoved : Removed (fun _ => True) s
      (s.modSession x fun z => { z with results := (s.session x).results.drop k }) := by
    refine ⟨fun j => rfl, fun y j => ?_, fun y hn => ?_, fun y r hr => ?_⟩
    · rw [State.session_modSession]
      split
      · rename_i hy; simp [hy]
      · simp
    · rw [State.session_modSession]
      split
      · rename_i hy; exact hy ▸ hn
      · exact hn
    · rw [State.session_modSession] at hr
      split at hr
      · rename_i hy; exact ⟨hy ▸ List.mem_of_mem_drop hr, trivial⟩
      · exact ⟨hr, trivial⟩
  have h := hremoved.refill (p := 0 < min k (s.session x).results.length) (x := x) hs
    (by simp) (fun y hy => by simp [hy]) (fun hp => by simp; omega)
  exact (claims_resultsCheck x _ _).keeps ((heldLaw_iff _).mpr h)

/-- A queue that has room has no HELD job behind it (04 R74). -/
theorem HeldLaw.heldOrder_of_room {s : State} (h : HeldLaw s) {x : Port}
    (hroom : (s.session x).results.length < Config.resultQueueSize) : (s.session x).heldOrder = [] := by
  by_contra hne
  exact absurd (h.full x hne) hroom.ne

/-- A result enters the unit from a job that holds none: it is queued, or the job is HELD (04 R76). -/
theorem keepsHeld_postResult {j : JobId} {b c : Job} {r : Record} {s : State} (hb : s.job j = some b)
    (ho : c.owner = b.owner) (hn : b.state.holds = none) (hr : r.job = j)
    (hlen : (s.session c.owner).results.length ≤ Config.resultQueueSize) :
    KeepsHeld s (postResult j c r s) := by
  intro hs
  obtain ⟨hlisted, -⟩ := (heldLaw_iff s).mp hs
  have hnot := hlisted.not_mem ((heldRecord_of_job hb).trans hn)
  have own : ∀ y u, claim j s = some (y, u) → y = c.owner := fun y u hu => by
    rw [claim_of_job hb] at hu
    cases hu
    exact ho.symm
  by_cases hroom : (s.session c.owner).results.length < 32
  · have hempty := hs.heldOrder_of_room hroom
    rw [postResult_queues hroom]
    refine Reclaimed.heldLaw (j := j) (x := c.owner) (v := none)
      ⟨own, fun k => by simp [Job.claim], nofun, fun y hy => by simp [hy], ?_, fun k => ?_, fun r' hr' => ?_⟩
      hs fun hne => absurd (by simp [hempty]) hne
    · simp [hempty]
    · simp [hempty]
    · simp only [State.session_modSession, State.session_putJob, if_true, List.mem_append,
        List.mem_singleton] at hr'
      exact hr'.imp_right (by rintro rfl; exact hr)
  · rw [postResult_holds (Nat.le_of_not_lt hroom)]
    refine Reclaimed.heldLaw (j := j) (x := c.owner) (v := some r)
      ⟨own, fun k => by simp [Job.claim, JobState.holds], by rintro _ ⟨⟩; exact hr,
        fun y hy => by simp [hy], ?_, fun k => ?_, fun r' hr' => .inl (by simpa using hr')⟩
      hs fun _ => ?_
    · simpa [List.nodup_append] using ⟨hlisted.nodup c.owner, fun k hk e => hnot c.owner (e ▸ hk)⟩
    · by_cases hk : k = j <;> simp [hk]
    · simpa using le_antisymm hlen (Nat.le_of_not_lt hroom)

/-! ### The run scheduler (03) -/

theorem sessions_abandon (j : JobId) (b : Job) (s : State) : (abandon j b s).sessions = s.sessions := by
  unfold abandon
  cases b.state <;> rfl

theorem claims_abandon (j : JobId) (b : Job) (s : State) : SameClaims s (abandon j b s) :=
  .of_records (jobs_abandon j b s) (sessions_abandon j b s)

theorem claims_startJob (c : ClassId) (j : JobId) (s : State) : SameClaims s (startJob c j s) := by
  unfold startJob
  cases hj : s.job j with
  | none => exact .refl s
  | some b =>
    simp only
    cases hr : runOf j b with
    | none => exact .refl s
    | some run =>
      have h1 : SameClaims s (s.putJob j (some { b with state := .running })) :=
        .putJob hj rfl (JobState.holds_of_pins (pins_of_runOf hr)).symm
      exact h1.trans (.of_records rfl rfl)

theorem claims_startStep (s : State) : SameClaims s (startStep s) := by
  unfold startStep
  cases s.psu with
  | some run => exact .refl s
  | none =>
    cases nextToRun s with
    | none => exact .refl s
    | some t => exact claims_startJob _ _ _

/-- A run that goes on or parks leaves every claim: its job was RUNNING, and a PARKED one holds no result either
(03 R61, R62). -/
theorem claims_segmentEnd {b : Job} {run : Run} {s : State} (hb : s.job run.job = some b)
    (hs : b.state = .running) : SameClaims s (segmentEnd b run s) := by
  have hjob := (addProducts_next s b Config.segment run).2
  unfold segmentEnd
  generalize addProducts s b Config.segment run = run' at hjob ⊢
  rw [← hjob] at hb
  simp only
  split
  · have h1 : SameClaims s (s.putJob run'.job (some (b.parked run'))) := .putJob hb rfl (by rw [hs]; rfl)
    exact h1.trans (.of_records rfl rfl)
  · exact .of_records rfl rfl

theorem keepsHeld_runEnd {b : Job} {run : Run} {s : State} (hb : s.job run.job = some b)
    (hs : b.state = .running) (hlen : ∀ x, (s.session x).results.length ≤ Config.resultQueueSize) :
    KeepsHeld s (runEnd b run s) := by
  have h1 : SameClaims s { s with psu := none } := .of_records rfl rfl
  have h2 : ∀ l, SameClaims s ({ s with psu := none }.modSession b.owner fun z =>
      { z with pendingList := l }) := fun l => h1.trans (.modSession rfl rfl)
  unfold runEnd
  exact (h2 _).keeps.trans (keepsHeld_postResult (b := b) hb rfl (by rw [hs]; rfl)
    (addProducts_next s b _ run).2 (((h2 _).results b.owner).symm ▸ (hlen b.owner)))

/-! ### Evictions (01 R11, 02 R39) -/

theorem claims_evict (r : RingId) {s : State} {j : JobId} (hn : heldRecord s j = none) :
    SameClaims s (evict r s j) := by
  unfold evict
  cases hj : s.job j with
  | none => exact .refl s
  | some b =>
    have hb : (abandon j b s).job j = some b := (job_abandon j j b s).trans hj
    have h1 : SameClaims (abandon j b s) ((abandon j b s).putJob j (some { b with
        state := b.returnState, lost := bump Config.counterLimit b.lost })) :=
      .putJob hb rfl (b.holds_returnState.trans ((heldRecord_of_job hj).symm.trans hn).symm)
    exact ((claims_abandon j b s).trans h1).trans (.modSession rfl rfl)

theorem claims_evictAll (r : RingId) {js : List JobId} {s : State}
    (hn : ∀ j ∈ js, heldRecord s j = none) : SameClaims s (evictAll r js s) := by
  induction js generalizing s with
  | nil => exact .refl s
  | cons j js ih =>
    have h1 := claims_evict r (hn j List.mem_cons_self)
    exact h1.trans (ih fun k hk => (h1.heldRecord k).trans (hn k (List.mem_cons_of_mem j hk)))

/-- A job that pins a ring holds no result (02 Table 2-2). -/
theorem heldRecord_of_pinner {r : RingId} {q : Nat → Bool} {s : State} {j : JobId}
    (h : j ∈ pinners r q s) : heldRecord s j = none := by
  have hj := (List.mem_filter.mp h).2
  cases hb : s.job j with
  | none => simp [hb] at hj
  | some b =>
    simp only [hb, Bool.and_eq_true] at hj
    rw [heldRecord_of_job hb]
    exact JobState.holds_of_pins (pinsRing_iff.mp hj.1).2

theorem claims_evictPinners (r : RingId) (q : Nat → Bool) (s : State) :
    SameClaims s (evictAll r (pinners r q s) s) := claims_evictAll r fun _ => heldRecord_of_pinner

theorem claims_evictOverwritten (r : RingId) (g : Ring) (s : State) :
    SameClaims s (evictOverwritten r g s) := by
  unfold evictOverwritten
  split
  · exact claims_evictPinners _ _ _
  · exact .refl s

/-! ### Triggers, countdowns and samples (01 R12 to R16, 02 R34 to R38) -/

theorem claims_fire {j : JobId} {b c : Job} (head : Nat) (extra : Bool) {s : State}
    (hb : s.job j = some b) (ho : c.owner = b.owner) (hn : b.state.holds = none) :
    SameClaims s (fire j c head extra s) := by
  have h1 : SameClaims s (s.putJob j (some { c with
      state := .ready, windowStart := head - c.par.length, triggerHead := head, extra := extra,
      preempted := false })) := .putJob hb ho hn.symm
  exact h1.trans (.of_records rfl rfl)

theorem claims_trigger {j : JobId} {b : Job} (countdown head fill : Nat) {s : State}
    (hb : s.job j = some b) :
    SameClaims s (trigger j { b with countdown := countdown } head fill s) := by
  unfold trigger
  split
  · exact .putJob hb rfl rfl
  · cases hst : b.state with
    | armed => exact claims_fire head false hb rfl (by rw [hst]; rfl)
    | defined => exact .putJob hb rfl (by rw [hst])
    | ready | running | parked _ | held _ =>
      have h1 : SameClaims s (s.putJob j (some { b with
        countdown := countdown, missed := bump Config.counterLimit b.missed })) := .putJob hb rfl rfl
      rw [hst] at h1
      exact h1.trans (.modSession rfl rfl)

theorem claims_countdownJob (r : RingId) (head fill : Nat) (s : State) (j : JobId) :
    SameClaims s (countdownJob r head fill s j) := by
  unfold countdownJob
  cases hj : s.job j with
  | none => exact .refl s
  | some b =>
    simp only
    split
    · split
      · exact claims_trigger _ _ _ hj
      · exact .putJob hj rfl rfl
    · exact .refl s

theorem claims_writeSample (r : RingId) (g : Ring) (v : Word16) (s : State) :
    SameClaims s (writeSample r g v s) := by
  have h1 : SameClaims s
      ({ s with sampleMem := s.sampleMem.write (g.base + g.head % g.capacity) v }.putRing r
        (some g.taken)) := .of_records rfl rfl
  exact h1.trans (.foldl (claims_countdownJob r g.taken.head g.taken.fill) allJobs _)

theorem claims_writeSamples (r : RingId) (ws : List Word16) (n : Nat) (s : State) :
    SameClaims s (writeSamples r ws n s).2 := by
  induction ws generalizing n s with
  | nil => exact .refl s
  | cons v ws ih =>
    unfold writeSamples
    cases s.ring r with
    | none => exact .refl s
    | some g =>
      simp only
      split
      · exact (claims_writeSample r g v s).trans (ih _ _)
      · exact .refl s

/-! ### Definition and deletion (02 R29, R30, R45) -/

/-- A new job holds no result, and no record of an EMPTY one is queued (02 R29). -/
theorem keepsHeld_putNew {j : JobId} {d : Job} {s : State} (hj : s.job j = none)
    (hd : d.state.holds = none) : KeepsHeld s (s.putJob j (some d)) := by
  intro hs
  obtain ⟨hlisted, hfull⟩ := (heldLaw_iff s).mp hs
  have hnone : claim j s = none := by simp [claim, hj]
  have hnot := hlisted.not_mem (j := j) (by simp [heldRecord_eq, hnone])
  refine Reclaimed.heldLaw (s := s) (j := j) (x := d.owner) (v := none)
    ⟨by simp [hnone], fun k => by simp [Job.claim, hd], nofun, fun _ _ => rfl, hlisted.nodup _,
      fun k => ?_, fun r hr => .inl hr⟩ hs (hfull _)
  by_cases hk : k = j
  · simp [hk, hnot]
  · simp [hk]

/-- The end of a fire takes the job out of the held order list, if it stands there (04 R77). -/
theorem heldOrder_endFire {j : JobId} {b : Job} {s : State} (h : HeldLaw s) (hb : s.job j = some b)
    (x : Port) : ((endFire j b s).session x).heldOrder = (s.session x).heldOrder.filter fun k => k ≠ j := by
  have absent : j ∉ (s.session x).heldOrder →
      (s.session x).heldOrder = (s.session x).heldOrder.filter fun k => k ≠ j := fun hj =>
    (List.filter_eq_self.mpr fun k hk => by simpa using fun e : k = j => hj (e ▸ hk)).symm
  have hmem : j ∈ (s.session x).heldOrder → b.owner = x ∧ ∃ r, b.state = .held r := fun hj => by
    obtain ⟨c, r, hc, ho, hr⟩ := (h.listed x j).mp hj
    cases hb.symm.trans hc
    exact ⟨ho, r, hr⟩
  unfold endFire
  cases hst : b.state with
  | held r =>
    rw [State.session_modSession]
    split
    · rename_i hx
      rw [hx]
    · rename_i hx
      exact absent fun hj => hx (hmem hj).1.symm
  | _ =>
    rw [show (abandon j b s).session x = s.session x from
      congrArg (Pair.look · x) (sessions_abandon j b s)]
    exact absent fun hj => by simpa [hst] using (hmem hj).2

/-- What a deletion takes from lists and queues before its move: the job and its records (02 R45, 04 R81). -/
theorem removed_endFire {j : JobId} {b : Job} {s : State} (h : HeldLaw s) (hb : s.job j = some b) :
    Removed (fun k => k ≠ j) s ((endFire j b s).modSession b.owner fun z =>
      { z with results := (s.session b.owner).results.filter fun r => r.job ≠ j }) := by
  have hlist : ∀ x, (((endFire j b s).modSession b.owner fun z =>
      { z with results := (s.session b.owner).results.filter fun r => r.job ≠ j }).session x).heldOrder =
        (s.session x).heldOrder.filter fun k => k ≠ j := fun x => by
    rw [State.session_modSession, ← heldOrder_endFire h hb]
    split
    · rename_i hx
      rw [hx]
    · rfl
  refine ⟨fun k => ?_, fun x k => ?_, fun x hn => ?_, fun x r hr => ?_⟩
  · exact congrArg (fun u => (Table.look u k).map Job.claim) (jobs_endFire j b s)
  · rw [hlist]
    simp
  · rw [hlist]
    exact hn.filter _
  · rw [State.session_modSession] at hr
    split at hr
    · rename_i hx
      simpa [hx] using hr
    · rename_i hx
      rw [results_endFire] at hr
      refine ⟨hr, fun hj => hx ?_⟩
      obtain ⟨c, hc, ho⟩ := h.owned x r hr
      rw [hj, hb] at hc
      cases hc
      exact ho.symm

/-- The job that has left every list and queue leaves the table (02 R45, step 5). -/
theorem heldLaw_putEmpty {j : JobId} {s : State} (h : Listed (fun k => k ≠ j) s)
    (hfull : ∀ x, HeldFull x s) : HeldLaw (s.putJob j none) := by
  refine (heldLaw_iff _).mpr ⟨⟨h.nodup, fun x k => ?_, fun k x r hr => ?_, fun x r hr => ?_⟩, hfull⟩
  · rw [State.session_putJob, h.listed, claim_putJob]
    by_cases hk : k = j <;> simp [hk]
  · rw [claim_putJob] at hr
    split at hr
    · cases hr
    · exact h.named k x r hr
  · obtain ⟨hj, hv⟩ := h.owned x r hr
    rw [claim_putJob, if_neg hj]
    exact ⟨trivial, hv⟩

theorem keepsHeld_deleteJob (j : JobId) (s : State) : KeepsHeld s (deleteJob j s) := by
  intro hs
  unfold deleteJob
  cases hj : s.job j with
  | none => exact hs
  | some b =>
    have hcount := purgeCount_eq j (s.session b.owner).results
    obtain ⟨hlisted, hfull⟩ := (removed_endFire hs hj).refill
      (p := 0 < purgeCount j (s.session b.owner).results) (x := b.owner) hs
      (by simpa using List.length_filter_le _ _) (fun y hy => by simp [hy, results_endFire])
      (fun hp => by
        have hle := List.length_filter_le (fun r : Record => decide (r.job ≠ j)) (s.session b.owner).results
        simp only [State.session_modSession, if_true]
        omega)
    simp only [purge, results_endFire]
    generalize (if 0 < purgeCount j (s.session b.owner).results then heldMove b.owner _ else _) = u
      at hlisted hfull ⊢
    have hcheck := claims_resultsCheck b.owner (s.session b.owner).results u
    have hsame := (hcheck.trans (.modSession (x := b.owner) rfl rfl)).trans
      ((unrefRing_only b.ring ((resultsCheck b.owner (s.session b.owner).results u).modSession b.owner fun z =>
        { z with pendingList := withdrawJob j z.pendingList })).sameClaims.trans
        (unrefSet_only b.set _).sameClaims)
    exact heldLaw_putEmpty (hsame.listed hlisted) fun x => hsame.heldFull (hfull x)

/-! ### Owners -/

/-- The session of the job with an id. -/
def ownerOf (j : JobId) (s : State) : Option Port := (claim j s).map Prod.fst

theorem ownerOf_eq (j : JobId) (s : State) : ownerOf j s = (s.job j).map Job.owner := by
  unfold ownerOf claim
  cases s.job j <;> rfl

theorem SameClaims.ownerOf {s t : State} (h : SameClaims s t) (j : JobId) :
    ownerOf j t = ownerOf j s := congrArg (Option.map Prod.fst) (h.claim j)

/-- A held record that moves leaves every job with its session. -/
theorem ownerOf_heldMove (x : Port) (s : State) (k : JobId) : ownerOf k (heldMove x s) = ownerOf k s := by
  have move : ∀ (j : JobId) (rest : List JobId) (s : State),
      ownerOf k (moveHeld x j rest s) = ownerOf k s := fun j rest s => by
    unfold moveHeld
    cases hj : s.job j with
    | none => rfl
    | some b =>
      simp only
      split
      · rw [ownerOf_eq, ownerOf_eq, State.job_putJob]
        split
        · rename_i hk
          simp [hk, hj]
        · rfl
      · rfl
  unfold heldMove
  generalize (s.session x).heldOrder = l
  induction l generalizing s with
  | nil => rfl
  | cons j rest ih =>
    unfold heldMoves
    split
    · rw [ih, move]
    · rfl

/-- A deletion leaves every other job with its session. -/
theorem ownerOf_deleteJob (j k : JobId) (s : State) :
    ownerOf k (deleteJob j s) = if k = j then none else ownerOf k s := by
  unfold deleteJob
  cases hj : s.job j with
  | none =>
    by_cases hk : k = j
    · simp [hk, ownerOf_eq, hj]
    · rw [if_neg hk]
  | some b =>
    have hpurge : ownerOf k (purge b.owner j (endFire j b s)) = ownerOf k s := by
      have hend : ownerOf k (endFire j b s) = ownerOf k s := by
        rw [ownerOf_eq, ownerOf_eq]
        exact congrArg (fun u => (Table.look u k).map Job.owner) (jobs_endFire j b s)
      unfold purge
      simp only
      rw [(claims_resultsCheck _ _ _).ownerOf]
      split
      · exact (ownerOf_heldMove _ _ _).trans hend
      · exact hend
    simp only
    rw [ownerOf_eq, State.job_putJob]
    split
    · rfl
    · rw [← ownerOf_eq, (unrefSet_only _ _).sameClaims.ownerOf, (unrefRing_only _ _).sameClaims.ownerOf]
      exact hpurge

theorem keepsHeld_deleteOwned (x : Port) (s : State) (j : JobId) : KeepsHeld s (deleteOwned x s j) := by
  unfold deleteOwned
  cases s.job j with
  | none => exact .refl s
  | some b =>
    simp only
    split
    · exact keepsHeld_deleteJob j s
    · exact .refl s

/-- A job is not of session `x` once its turn in the teardown has come, and after (08 R149, step 2). -/
theorem ownerOf_deleteOwned {x : Port} {k : JobId} {s : State} {j : JobId}
    (h : k = j ∨ ownerOf k s ≠ some x) : ownerOf k (deleteOwned x s j) ≠ some x := by
  unfold deleteOwned
  cases hj : s.job j with
  | none =>
    rcases h with rfl | h
    · simp [ownerOf_eq, hj]
    · exact h
  | some b =>
    simp only
    split
    · rw [ownerOf_deleteJob]
      split
      · simp
      · exact h.resolve_left ‹_›
    · rcases h with rfl | h
      · simpa [ownerOf_eq, hj]
      · exact h

theorem ownerOf_deleteAll {x : Port} {k : JobId} (l : List JobId) {s : State}
    (h : k ∈ l ∨ ownerOf k s ≠ some x) : ownerOf k (l.foldl (deleteOwned x) s) ≠ some x := by
  induction l generalizing s with
  | nil => exact h.resolve_left List.not_mem_nil
  | cons j l ih =>
    rw [List.mem_cons, or_assoc] at h
    refine ih ?_
    rcases h with h | h | h
    · exact .inr (ownerOf_deleteOwned (.inl h))
    · exact .inl h
    · exact .inr (ownerOf_deleteOwned (.inr h))

/-! ### Teardown (08 R149) -/

theorem claims_putLoad (x : Port) (l : Option Load) (s : State) : SameClaims s (putLoad x l s) :=
  .modSession rfl rfl

theorem claims_closeLoad (x : Port) (s : State) : SameClaims s (closeLoad x s) := by
  unfold closeLoad
  cases (s.session x).load with
  | none => exact .refl s
  | some l => exact (freeSet_only l.set s).sameClaims.trans (claims_putLoad x none _)

theorem claims_leaveRing (x : Port) (s : State) (r : RingId) : SameClaims s (leaveRing x s r) := by
  unfold leaveRing
  cases s.ring r with
  | none => exact .refl s
  | some g =>
    simp only
    split
    · split
      · exact (freeRing_only r s).sameClaims
      · exact (putRing_only s r _).sameClaims
    · exact .refl s

theorem claims_leaveSet (x : Port) (s : State) (c : SetId) : SameClaims s (leaveSet x s c) := by
  unfold leaveSet
  cases s.coef c with
  | none => exact .refl s
  | some v =>
    cases hp : v.phase with
    | loading => simp only [hp]; exact .refl s
    | ready o crc =>
      simp only [hp]
      split
      · split
        · exact (freeSet_only c s).sameClaims
        · exact (putCoef_only s c _).sameClaims
      · exact .refl s

/-- The record of a session that owns no job is closed. -/
theorem keepsHeld_close {x : Port} {s : State} (hx : ∀ j, ownerOf j s ≠ some x) :
    KeepsHeld s (s.putSession x Session.closed) := by
  intro hs
  obtain ⟨hlisted, hfull⟩ := (heldLaw_iff s).mp hs
  have hnone : ∀ j v, claim j s ≠ some (x, v) := fun j v hv => hx j (by simp [ownerOf, hv])
  have closed : (s.putSession x Session.closed).session x = Session.closed := by simp
  have other : ∀ y, y ≠ x → (s.putSession x Session.closed).session y = s.session y :=
    fun y hy => by simp [hy]
  refine (heldLaw_iff _).mpr ⟨⟨fun y => ?_, fun y j => ?_, hlisted.named, fun y r hr => ?_⟩, fun y hne => ?_⟩ <;>
    by_cases hy : y = x
  · rw [hy, closed]; exact List.nodup_nil
  · rw [other y hy]; exact hlisted.nodup y
  · rw [hy, closed]
    exact ⟨nofun, fun ⟨_, r, hr⟩ => absurd hr (hnone j _)⟩
  · rw [other y hy]; exact hlisted.listed y j
  · rw [hy, closed] at hr; cases hr
  · rw [other y hy] at hr; exact hlisted.owned y r hr
  · rw [hy, closed] at hne; exact absurd rfl hne
  · rw [other y hy] at hne ⊢; exact hfull y hne

theorem keepsHeld_teardown (x : Port) (s : State) : KeepsHeld s (teardown x s) := by
  have h1 : KeepsHeld s (allJobs.foldl (deleteOwned x) (closeLoad x s)) :=
    (claims_closeLoad x s).keeps.trans (.foldl (keepsHeld_deleteOwned x) allJobs _)
  have h2 := (SameClaims.foldl (claims_leaveRing x) allRings
    (allJobs.foldl (deleteOwned x) (closeLoad x s))).trans (.foldl (claims_leaveSet x) allSets _)
  refine (h1.trans h2.keeps).trans (keepsHeld_close fun j => ?_)
  rw [h2.ownerOf]
  exact ownerOf_deleteAll allJobs (.inl (mem_allJobs j))

theorem keepsHeld_teardownIfOpen (x : Port) (s : State) : KeepsHeld s (teardownIfOpen x s) := by
  unfold teardownIfOpen
  split
  · exact keepsHeld_teardown x s
  · exact .refl s

end Sys2Proof.Machine
end

section
/-! SUPPORT. Every happening keeps the laws of result queues and held order lists: sending, the blocks of the
commands, arrivals, ports and timers, and so every step (04 R74, R75, R77). -/

namespace Sys2Proof.Machine

/-! ### Sending and the transmitters (09 R157, R159; 10 R174 to R180) -/

/-- A port's record changes, and no job or session. -/
theorem claims_modPort (s : State) (p : Port) (f : PortState → PortState) : SameClaims s (s.modPort p f) :=
  .of_records rfl rfl

/-- A sent ALERT sets a reported class alone (05 R98). -/
theorem claims_reportClass (e : Entry) (s : State) : SameClaims s (reportClass e s) := by
  unfold reportClass
  cases e with
  | alert j c v run n =>
    cases hj : s.job j with
    | none => simp only [hj]; exact .refl s
    | some b =>
      cases hw : b.watch with
      | none => simp only [hj, hw]; exact .refl s
      | some w => simp only [hj, hw]; exact .putJob hj rfl rfl
  | fault j r n => exact .refl s
  | overrun j n => exact .refl s
  | results => exact .refl s

theorem claims_sendEntry (x : Port) (e : Entry) (rest : List Entry) (s : State) :
    SameClaims s (sendEntry x e rest s) := by
  unfold sendEntry
  exact (claims_reportClass e s).trans (.modSession rfl rfl)

theorem claims_resend (x : Port) (s : State) : SameClaims s (resend x s) := .modSession rfl rfl

theorem claims_arbiter (p : Port) (s : State) : SameClaims s (arbiter p s).2 := by
  unfold arbiter
  cases (s.port p).fifo with
  | cons f rest => exact claims_modPort s p fun q => { q with fifo := rest }
  | nil =>
    cases offer p s with
    | again n => exact claims_resend p s
    | fresh e rest => exact claims_sendEntry p e rest s
    | nothing => exact .refl s

theorem claims_askU (s : State) : SameClaims s (askU s) := by
  unfold askU
  cases s.txU with
  | some f => exact .refl s
  | none => exact (claims_arbiter .u s).trans (.of_records rfl rfl)

theorem claims_askS (s : State) : SameClaims s (askS s) := by
  have h := claims_arbiter .s s
  unfold askS
  rcases ha : arbiter .s s with ⟨f, s'⟩
  rw [ha] at h
  cases f <;> exact h.trans (.of_records rfl rfl)

theorem claims_finish (s : State) : SameClaims s (finish s) :=
  (claims_startStep s).trans (claims_askU _)

theorem KeepsHeld.finish {s t : State} (h : KeepsHeld s t) : KeepsHeld s (finish t) :=
  h.trans (claims_finish t).keeps

theorem claims_setTimer (x : Port) (s : State) : SameClaims s (setTimer x s) := .modSession rfl rfl

theorem claims_noticeSent (x : Port) (f : Frame) (s : State) : SameClaims s (noticeSent x f s) := by
  unfold noticeSent
  split
  · exact .trans (.modSession rfl rfl) (claims_setTimer x _)
  · exact .refl s

theorem claims_endS (s : State) : SameClaims s (endS s) := by
  unfold endS
  cases s.txS.current with
  | none => exact .refl s
  | some o =>
    have h1 : SameClaims s { s with txS := { s.txS with current := none, filler := false } } :=
      .of_records rfl rfl
    simp only
    split
    · exact h1.trans (claims_noticeSent _ _ _)
    · exact .refl s

theorem claims_startExchange (s : State) : SameClaims s (startExchange s) := by
  have h : SameClaims s (select (endS s)) := (claims_endS s).trans (.of_records rfl rfl)
  unfold startExchange
  simp only
  split
  · exact h.trans (claims_askS _)
  · exact h

theorem claims_exchangeS (s : State) : SameClaims s (exchangeS s) := by
  unfold exchangeS
  simp only
  split <;> exact (claims_startExchange s).trans (.of_records rfl rfl)

/-! ### The blocks of the commands -/

/-- A block whose answer keeps the laws of the result unit. -/
def BlockKeepsHeld (act : List Byte → State → Option Answer) : Prop :=
  ∀ args s a, act args s = some a → KeepsHeld s a.state

theorem ChangesNothing.keepsHeld {act : List Byte → State → Option Answer} (h : ChangesNothing act) :
    BlockKeepsHeld act := fun args s a ha => by
  rw [h args s a ha]
  exact .refl s

/-! A refusal leaves the state, so only what stands behind a block's last check matters. -/

theorem ringCreate_keepsHeld (x : Port) : BlockKeepsHeld (ringCreate x) := by
  intro args s a h
  unfold ringCreate at h
  split at h <;> cases h
  simp only
  iterate 6 (split; · exact .refl s)
  have h1 : ∀ free r v, SameClaims s ({ s with sampleFree := free }.putRing r v) :=
    fun _ _ _ => .of_records rfl rfl
  exact ((h1 _ _ _).trans (bindSource_only _ _ _).sameClaims).keeps

theorem ringDelete_keepsHeld (x : Port) : BlockKeepsHeld (ringDelete x) := by
  intro args s a h
  unfold ringDelete at h
  split at h <;> cases h
  simp only
  iterate 4 (split; · exact .refl s)
  exact (freeRing_only _ s).sameClaims.keeps

theorem ringFlush_keepsHeld (x : Port) : BlockKeepsHeld (ringFlush x) := by
  intro args s a h
  unfold ringFlush at h
  split at h <;> cases h
  simp only
  iterate 3 (split; · exact .refl s)
  exact ((claims_evictPinners _ _ s).trans (putRing_only _ _ _).sameClaims).keeps

theorem ringWrite_keepsHeld (x : Port) : BlockKeepsHeld (ringWrite x) := by
  intro args s a h
  unfold ringWrite at h
  split at h
  · split at h
    · cases h
    · split at h <;> cases h
      simp only
      iterate 5 (split; · exact .refl s)
      exact (claims_writeSamples _ _ 0 s).keeps
  · cases h

theorem setBegin_keepsHeld (x : Port) : BlockKeepsHeld (setBegin x) := by
  intro args s a h
  unfold setBegin at h
  split at h <;> cases h
  simp only
  iterate 5 (split; · exact .refl s)
  have h1 : ∀ free c v, SameClaims s ({ s with coefFree := free }.putCoef c v) :=
    fun _ _ _ => .of_records rfl rfl
  exact ((h1 _ _ _).trans (claims_putLoad x _ _)).keeps

theorem setData_keepsHeld (x : Port) : BlockKeepsHeld (setData x) := by
  intro args s a h
  unfold setData at h
  split at h
  · split at h
    · cases h
    · split at h <;> cases h
      simp only
      iterate 4 (split; · exact .refl s)
      split
      · have h1 : ∀ m, SameClaims s { s with coefMem := m } := fun _ => .of_records rfl rfl
        exact ((h1 _).trans (claims_putLoad x _ _)).keeps
      · split <;> exact .refl s
  · cases h

theorem setEnd_keepsHeld (x : Port) : BlockKeepsHeld (setEnd x) := by
  intro args s a h
  unfold setEnd at h
  split at h <;> cases h
  simp only
  iterate 3 (split; · exact .refl s)
  split
  · exact ((putCoef_only s _ _).sameClaims.trans (claims_putLoad x _ _)).keeps
  · exact (claims_putLoad x _ s).keeps

theorem setAbort_keepsHeld (x : Port) : BlockKeepsHeld (setAbort x) := by
  intro args s a h
  unfold setAbort at h
  split at h <;> cases h
  split
  · exact .refl s
  · exact ((freeSet_only _ s).sameClaims.trans (claims_putLoad x _ _)).keeps

theorem setDelete_keepsHeld (x : Port) : BlockKeepsHeld (setDelete x) := by
  intro args s a h
  unfold setDelete at h
  split at h <;> cases h
  simp only
  iterate 5 (split; · exact .refl s)
  exact (freeSet_only _ s).sameClaims.keeps

/-- A definition reaches an EMPTY record or a DEFINED job of its session (02 R28). -/
theorem defineOwner_some {x : Port} {b : Job} (h : defineOwner x (some b) = none) :
    b.owner = x ∧ b.state = .defined := by
  simp only [defineOwner] at h
  split at h
  · cases h
  · split at h
    · cases h
    · exact ⟨not_not.mp ‹_›, not_not.mp ‹_›⟩

theorem keepsHeld_defineNew {x : Port} {j : JobId} {r : RingId} {c : SetId} {par : Params} {s : State}
    (hj : s.job j = none) : KeepsHeld s (defineNew x j r c par s) := by
  have h1 := (refRing_only r s).sameClaims.trans (refSet_only c _).sameClaims
  have hjobs := (refSet_only c (refRing r s)).jobs.trans (refRing_only r s).jobs
  exact h1.keeps.trans (keepsHeld_putNew ((congrArg (Table.look · j) hjobs).trans hj) rfl)

/-- A redefined job stays its session's, and DEFINED (02 R30). -/
theorem claims_redefine {x : Port} {j : JobId} {b : Job} (r : RingId) (c : SetId) (par : Params) {s : State}
    (hj : s.job j = some b) (ho : b.owner = x) (hd : b.state = .defined) :
    SameClaims s (redefine x j b r c par s) := by
  have h1 := (refRing_only r s).trans (unrefRing_only b.ring _)
  have h2 := (refSet_only c (unrefRing b.ring (refRing r s))).trans (unrefSet_only b.set _)
  have hput := SameClaims.putJob (c := Job.fresh x r c par b.runNumber)
    ((congrArg (Table.look · j) (h2.jobs.trans h1.jobs)).trans hj) ho.symm (by rw [hd]; rfl)
  unfold redefine
  exact ((h1.sameClaims.trans h2.sameClaims).trans hput).trans (.modSession rfl rfl)

theorem jobDefine_keepsHeld (x : Port) : BlockKeepsHeld (jobDefine x) := by
  intro args s a h
  unfold jobDefine at h
  split at h <;> cases h
  simp only
  split
  · exact .refl s
  split
  · exact .refl s
  rename_i hown
  split
  · exact .refl s
  split
  · rename_i hj
    exact keepsHeld_defineNew hj
  · rename_i b hj
    obtain ⟨ho, hd⟩ := defineOwner_some (hj ▸ hown)
    exact (claims_redefine _ _ _ hj ho hd).keeps

theorem jobArm_keepsHeld (x : Port) : BlockKeepsHeld (jobArm x) := by
  intro args s a h
  unfold jobArm at h
  split at h <;> cases h
  simp only
  split
  · exact .refl s
  rename_i j b hj
  iterate 2 (split; · exact .refl s)
  refine SameClaims.keeps (.putJob (ownedJob_ok hj) rfl ?_)
  by_cases hd : b.state = .defined <;> simp [hd, JobState.holds]

theorem jobStart_keepsHeld (x : Port) : BlockKeepsHeld (jobStart x) := by
  intro args s a h
  unfold jobStart at h
  split at h <;> cases h
  simp only
  split
  · exact .refl s
  rename_i j b hj
  split
  · exact .refl s
  rename_i hst
  split
  · exact .refl s
  rw [← not_or, not_not] at hst
  refine (claims_fire _ _ (ownedJob_ok hj) rfl ?_).keeps
  rcases hst with hst | hst <;> rw [hst] <;> rfl

/-- A cancelled job holds what it held (02 R43). -/
theorem Job.holds_cancelled (b : Job) : b.cancelled.state.holds = b.state.holds := by
  unfold Job.cancelled
  cases b.state <;> rfl

theorem jobCancel_keepsHeld (x : Port) : BlockKeepsHeld (jobCancel x) := by
  intro args s a h
  unfold jobCancel at h
  split at h <;> cases h
  simp only
  split
  · exact .refl s
  · rename_i j b hj
    refine SameClaims.keeps ((claims_abandon j b s).trans ?_)
    exact .putJob ((job_abandon j j b s).trans (ownedJob_ok hj)) rfl b.holds_cancelled

theorem jobDelete_keepsHeld (x : Port) : BlockKeepsHeld (jobDelete x) := by
  intro args s a h
  unfold jobDelete at h
  split at h <;> cases h
  split
  · exact .refl s
  · exact keepsHeld_deleteJob _ s

theorem claims_putWatch {x : Port} {j : JobId} {b : Job} {s : State} (w : Option Watch)
    (hj : s.job j = some b) : SameClaims s (putWatch x j b w s) := by
  have h1 : SameClaims s (s.putJob j (some { b with watch := w })) := .putJob hj rfl rfl
  exact h1.trans (.modSession rfl rfl)

theorem jobWatch_keepsHeld (x : Port) : BlockKeepsHeld (jobWatch x) := by
  intro args s a h
  unfold jobWatch at h
  split at h <;> cases h
  simp only
  split
  · exact .refl s
  rename_i j b hj
  split
  · exact (claims_putWatch none (ownedJob_ok hj)).keeps
  iterate 2 (split; · exact .refl s)
  exact (claims_putWatch _ (ownedJob_ok hj)).keeps

theorem fetchBlock_keepsHeld (x : Port) : BlockKeepsHeld (fetchBlock x) := by
  intro args s a h
  unfold fetchBlock at h
  split at h <;> cases h
  simp only
  split
  · exact .refl s
  · exact keepsHeld_removeOldest x _ s

/-! ### The execution of a command (08 R143 to R147) -/

theorem claims_place (p : Port) (f : Frame) (s : State) : SameClaims s (place p f s) := .of_records rfl rfl

theorem claims_takeCommand (x : Port) (rest : List Command) (s : State) :
    SameClaims s (takeCommand x rest s) := by
  have h1 : SameClaims s (s.modSession x fun z => { z with queue := rest }) := .modSession rfl rfl
  exact h1.trans (.of_records rfl rfl)

theorem claims_reply (x : Port) (f : Frame) (s : State) : SameClaims s (reply x f s) := by
  have h1 : SameClaims s (s.modSession x fun z => { z with cache := cacheReply f z.cache }) :=
    .modSession rfl rfl
  exact h1.trans (claims_place x f _)

theorem keepsHeld_execute {x : Port} {code : Byte} {act : List Byte → State → Option Answer}
    (hact : BlockKeepsHeld act) {s t : State} (h : execute x code act s = some t) : KeepsHeld s t := by
  unfold execute at h
  split at h
  · split at h
    · simp only at h
      split at h <;> cases h
      · rename_i ha
        exact ((claims_takeCommand x _ s).keeps.trans (hact _ _ _ ha)).trans (claims_reply _ _ _).keeps
      · exact ((claims_takeCommand x _ s).trans (claims_reply _ _ _)).keeps
    · cases h
  · cases h

theorem keepsHeld_runCommand {act : List Byte → State → Option Answer} (hact : BlockKeepsHeld act)
    (x : Port) (code : Byte) (s : State) : KeepsHeld s (runCommand x code act s) := by
  unfold runCommand
  cases h : execute x code act s with
  | none => exact .refl s
  | some t => exact (keepsHeld_execute hact h).finish

theorem keepsHeld_badKind (x : Port) (s : State) : KeepsHeld s (badKind x s) := by
  unfold badKind
  cases nextCommand x s with
  | none => exact .refl s
  | some cr =>
    simp only
    split
    · exact .refl s
    · exact ((claims_takeCommand x cr.2 s).trans (claims_reply x _ _)).keeps.finish

theorem keepsHeld_bye (x : Port) (s : State) : KeepsHeld s (bye x s) := by
  unfold bye
  cases h : execute x 0x11 byeBlock s with
  | none => exact .refl s
  | some t =>
    have h1 := keepsHeld_execute byeBlock_changesNothing.keepsHeld h
    refine KeepsHeld.finish ?_
    split
    · exact h1.trans (keepsHeld_teardown x t)
    · exact h1

/-! ### Arrivals, bytes and timers (08 R133 to R141, 09 R160 to R163, 10 R168 to R173) -/

theorem claims_placeIfRoom (p : Port) (f : Frame) (s : State) : SameClaims s (placeIfRoom p f s) := by
  unfold placeIfRoom
  split
  · exact claims_place p f s
  · exact .refl s

theorem claims_openSession (x : Port) (timeout : Nat) (notify : Bool) (s : State) :
    SameClaims s (openSession x timeout notify s) := .modSession rfl rfl

theorem keepsHeld_arriveHello (x : Port) (f : Frame) (s : State) : KeepsHeld s (arriveHello x f s) := by
  have refused : ∀ st, KeepsHeld s (place x (replyFrame f.seq st codeHello []) s) :=
    fun st => (claims_place x _ s).keeps
  unfold arriveHello
  split
  · unfold takeHello
    simp only
    split
    · iterate 3 (split; · exact refused _)
      exact (keepsHeld_teardownIfOpen x s).trans
        ((claims_openSession x _ _ _).trans (claims_place x _ _)).keeps
    · exact refused _
  · exact .refl s

theorem claims_accept (x : Port) (f : Frame) (s : State) : SameClaims s (accept x f s) := by
  unfold accept
  simp only
  split
  · split
    · exact SameClaims.modSession (f := fun z => { z with
        queue := z.queue ++ [{ seq := f.seq, payload := f.payload }], expected := z.expected + 1 }) rfl rfl
    · exact claims_placeIfRoom _ _ _
  · split
    · exact .refl s
    · split <;> exact claims_placeIfRoom _ _ _

theorem keepsHeld_arriveCommand (x : Port) (f : Frame) (s : State) :
    KeepsHeld s (arriveCommand x f s) := by
  unfold arriveCommand
  split
  · exact keepsHeld_arriveHello x f s
  · split
    · exact (claims_accept x f s).keeps
    · exact (claims_placeIfRoom _ _ _).keeps

theorem claims_arriveAck (x : Port) (f : Frame) (s : State) : SameClaims s (arriveAck x f s) := by
  unfold arriveAck
  split
  · cases younger f.seq (s.session x).inFlight with
    | none => exact .refl s
    | some rest => exact .trans (.modSession rfl rfl) (claims_setTimer x _)
  · exact .refl s

theorem keepsHeld_resolve (p : Port) (f : Frame) (good : Bool) (s : State) :
    KeepsHeld s (resolve p f good s) := by
  unfold resolve
  split
  · exact (claims_modPort s p _).keeps
  · split
    · exact keepsHeld_arriveCommand p f s
    · split
      · exact (claims_arriveAck p f s).keeps
      · split
        · exact .refl s
        · exact (claims_modPort s p _).keeps

theorem keepsHeld_deliver (p : Port) (b : Byte) (s : State) : KeepsHeld s (deliver p b s) := by
  have h1 : SameClaims s (exchange p s) := by
    cases p
    · exact .refl s
    · exact claims_exchangeS s
  have h2 : SameClaims s (noteByteU p (exchange p s)) :=
    h1.trans (by cases p <;> exact .of_records rfl rfl)
  have h3 : SameClaims s ((noteByteU p (exchange p s)).modPort p fun q =>
      { q with rx := (((noteByteU p (exchange p s)).port p).rx.take b).1 }) :=
    h2.trans (claims_modPort _ p _)
  unfold deliver
  simp only
  split
  · exact h3.keeps
  · exact (h3.trans (claims_modPort _ p _)).keeps
  · exact h3.keeps.trans (keepsHeld_resolve p _ _ _)

theorem claims_markAll (x : Port) (s : State) : SameClaims s (markAll x s) :=
  .trans (.modSession rfl rfl) (claims_setTimer x _)

theorem keepsHeld_expire (x : Port) (s : State) : KeepsHeld s (expire x s) := by
  unfold expire
  split
  · exact (claims_markAll x s).keeps
  · exact (keepsHeld_teardownIfOpen x s).trans (claims_modPort _ x _).keeps

theorem keepsHeld_hear (p : Port) (b : Byte) (s : State) : KeepsHeld s (hear p b s) := by
  have h := (keepsHeld_deliver p b s).finish
  unfold hear
  simp only
  split
  · refine h.trans ?_
    rcases expireOverdue_cases p (finish (deliver p b s)) with ⟨-, he⟩ | ⟨-, he⟩ <;> rw [he]
    · exact (keepsHeld_expire p _).finish
    · exact .refl _
  · exact h

theorem claims_breakPartial (p : Port) (s : State) : SameClaims s (breakPartial p s) := by
  unfold breakPartial
  split <;> exact .of_records rfl rfl

theorem keepsHeld_linkReset (s : State) : KeepsHeld s (linkReset s) := by
  have h1 := (claims_modPort s .u fun q => { q with rx := .hunt }).keeps.trans (keepsHeld_teardownIfOpen .u _)
  exact h1.trans (SameClaims.keeps (.of_records rfl rfl))

theorem keepsHeld_timed {due : State → Option Nat} {act : State → State}
    (hact : ∀ u, KeepsHeld u (act u)) {s t : State} (h : timed due act s = .next t) : KeepsHeld s t := by
  rcases timed_cases due act s with ⟨n, -, -, hn⟩ | ⟨-, hn⟩ <;> rw [hn] at h <;> cases h
  · have h1 : SameClaims s (advanceTo n (endS s)) := (claims_endS s).trans (.of_records rfl rfl)
    exact (h1.keeps.trans (hact _)).finish
  · exact .refl s

/-! ### The sample port (01 R9, R12) -/

theorem claims_sampleArrival (c : ChannelId) (v : Word16) (s : State) :
    SameClaims s (sampleArrival c v s) := by
  unfold sampleArrival
  cases s.binding c with
  | none => exact .refl s
  | some r =>
    simp only
    cases s.ring r with
    | none => exact .refl s
    | some g =>
      simp only
      split
      · exact ((claims_evictOverwritten r g s).trans (claims_writeSample r g v _)).trans (claims_finish _)
      · exact .refl s

theorem claims_clockSample (s : State) (t : SpPeriod) : SameClaims s (clockSample s t) := by
  have word : ∀ l, SameClaims s { s with spWord := l } := fun l => .of_records rfl rfl
  unfold clockSample
  split
  · exact word _
  · split
    · exact .refl s
    · simp only
      split
      · exact word _
      · exact (word []).trans (claims_sampleArrival _ _ _)

/-! ### Every step -/

/-- A happening whose condition fails leaves the state (log 2). -/
theorem keepsHeld_ite {p : Prop} [Decidable p] {s t u : State} (hu : KeepsHeld s u)
    (h : (if p then Host.Outcome.next (finish u) else .next s) =
      Host.Outcome.next (φ := Fault) (ρ := Refusal) t) : KeepsHeld s t := by
  split at h <;> cases h
  · exact hu.finish
  · exact .refl s

/-- At a segment end and at a run end the job of the run is RUNNING, so it stands in no held order list, and the
queue that its result enters is within its capacity. -/
theorem keepsHeld_runHappening {s t : State} (hq : QueueLaw s)
    (hlen : ∀ x, (s.session x).results.length ≤ Config.resultQueueSize)
    (h : execSegmentEnd s = .next t ∨ execRunEnd s = .next t) : KeepsHeld s t := by
  unfold execSegmentEnd execRunEnd at h
  cases hf : inFlightRun s with
  | none => simp only [hf, or_self] at h; cases h; exact .refl s
  | some rb =>
    obtain ⟨run, b⟩ := rb
    have hb := (job_of_inFlightRun hf).2
    have hrun := hq.inFlight hf
    simp only [hf] at h
    rcases h with h | h
    · exact keepsHeld_ite (claims_segmentEnd hb hrun).keeps h
    · rw [← ite_not] at h
      exact keepsHeld_ite (keepsHeld_runEnd hb hrun hlen) h

theorem keepsHeld_resetDevice (baud : Level) (lines : Lines) (s : State) :
    KeepsHeld s (resetDevice baud lines s) := fun _ => by
  constructor <;> simp [Session.closed]

theorem keepsHeld_exec {i : Instr} {s t : State} (hq : QueueLaw s)
    (hlen : ∀ x, (s.session x).results.length ≤ Config.resultQueueSize) (h : exec i s = .next t) :
    KeepsHeld s t := by
  have run : ∀ {act x code}, BlockKeepsHeld act →
      Host.Outcome.next (φ := Fault) (ρ := Refusal) (runCommand x code act s) = .next t →
      KeepsHeld s t := fun hact h => by
    cases h
    exact keepsHeld_runCommand hact _ _ s
  cases i with
  | rstn baud lines => cases h; exact keepsHeld_resetDevice baud lines s
  | sampleArrival periods => cases h; exact (SameClaims.foldl claims_clockSample periods s).keeps
  | segmentEnd => exact keepsHeld_runHappening hq hlen (.inl h)
  | runEnd => exact keepsHeld_runHappening hq hlen (.inr h)
  | frameResolution p last =>
    simp only [exec, execFrameResolution] at h
    split at h <;> cases h
    · exact keepsHeld_hear p last s
    · exact .refl s
  | frameLengthError p len => exact keepsHeld_ite (keepsHeld_deliver p len s) h
  | hello p last => exact keepsHeld_ite (keepsHeld_deliver p last s) h
  | badKind x => cases h; exact keepsHeld_badKind x s
  | bye x => cases h; exact keepsHeld_bye x s
  | status x => exact run (statusBlock_changesNothing x).keepsHeld h
  | ringCreate x => exact run (ringCreate_keepsHeld x) h
  | ringDelete x => exact run (ringDelete_keepsHeld x) h
  | ringFlush x => exact run (ringFlush_keepsHeld x) h
  | ringWrite x => exact run (ringWrite_keepsHeld x) h
  | ringRead x => exact run ringRead_changesNothing.keepsHeld h
  | ringQuery x => exact run ringQuery_changesNothing.keepsHeld h
  | setBegin x => exact run (setBegin_keepsHeld x) h
  | setData x => exact run (setData_keepsHeld x) h
  | setEnd x => exact run (setEnd_keepsHeld x) h
  | setAbort x => exact run (setAbort_keepsHeld x) h
  | setDelete x => exact run (setDelete_keepsHeld x) h
  | setQuery x => exact run setQuery_changesNothing.keepsHeld h
  | memQuery x => exact run memQuery_changesNothing.keepsHeld h
  | jobDefine x => exact run (jobDefine_keepsHeld x) h
  | jobArm x => exact run (jobArm_keepsHeld x) h
  | jobStart x => exact run (jobStart_keepsHeld x) h
  | jobCancel x => exact run (jobCancel_keepsHeld x) h
  | jobDelete x => exact run (jobDelete_keepsHeld x) h
  | jobQuery x => exact run jobQuery_changesNothing.keepsHeld h
  | jobWatch x => exact run (jobWatch_keepsHeld x) h
  | fetch x => exact run (fetchBlock_keepsHeld x) h
  | transmitArbiterChoice p =>
    cases p with
    | u => exact keepsHeld_ite (.refl s) h
    | s => cases h; exact (claims_startExchange s).keeps.finish
  | transmissionEnd p =>
    cases p with
    | u =>
      simp only [exec, execTransmissionEnd] at h
      split at h <;> cases h
      · rename_i f _
        have h1 : SameClaims s { s with txU := none } := .of_records rfl rfl
        exact (h1.trans (claims_noticeSent .u f _)).keeps.finish
      · exact .refl s
    | s => exact keepsHeld_ite (claims_endS s).keeps h
  | noticeTimerExpiry x =>
    exact keepsHeld_timed (due := fun s => (s.session x).timer) (keepsHeld_expire x) h
  | framingError counted =>
    cases h
    have h1 : SameClaims s { breakPartial .u s with urx := .atSpace (spaceSince counted s) s.ms } :=
      (claims_breakPartial .u s).trans (.of_records rfl rfl)
    exact h1.keeps.finish
  | interByteGap =>
    exact keepsHeld_timed (act := dropPartial .u) (fun _ => SameClaims.keeps (.of_records rfl rfl)) h
  | linkReset => exact keepsHeld_timed keepsHeld_linkReset h
  | deselect =>
    have h1 : SameClaims s (deselect (endS s)) := (claims_endS s).trans (.of_records rfl rfl)
    exact keepsHeld_ite (h1.trans (claims_breakPartial .s _)).keeps h
  | byteDelivered p b => cases h; exact keepsHeld_hear p b s

/-- Settles O55: a result enters a lawful list or queue, and what takes records out of a queue refills it, so the
chain of operations that a step is keeps the laws. -/
theorem stepKeepsTheHeldLaw : Obligations.StepKeepsTheHeldLaw := by
  intro s t hsched hbounds hs h
  have hq := ((schedulerLaw_iff s).mp hsched).1
  unfold step at h
  split at h
  · rename_i c rest _
    have hpop : SameSchedule s { s with pending := rest } := .of_jobs rfl rfl rfl
    have hsame : SameClaims s { s with pending := rest } := .of_records rfl rfl
    exact keepsHeld_exec (hpop.queueLaw hq) hbounds.results h (hsame.keeps hs)
  · unfold idle at h
    split at h
    · exact keepsHeld_exec hq hbounds.results h hs
    · cases h
      have hsame : SameClaims s (tick s) := .of_records rfl rfl
      exact hsame.keeps hs

end Sys2Proof.Machine
end

section
/-! SUPPORT. A job's pending ALERT entry under a fold and a withdrawal, and what a classified result does to the
watch and the list (05 R95 to R97, R99, Table 5-2). -/

namespace Sys2Proof.Machine

/-! ### The pending ALERT entry of a job -/

section
variable {j : JobId} {l pre post : List Entry}

/-- A fold leaves the entries that are no ALERT entry of the job (05 R96). -/
theorem foldAlert_of_none (c : Class) (v : Int) (n : Word16) (h : l.any (Entry.isAlertOf j) = false) :
    foldAlert j c v n l = l := by
  refine (List.map_congr_left fun e he => ?_).trans (List.map_id l)
  have hother := List.any_eq_false.mp h e he
  cases e with
  | alert k c' v' n' m => exact if_neg (by simpa [Entry.isAlertOf] using hother)
  | _ => rfl

/-- A withdrawal leaves the entries that are no ALERT entry of the job (05 R99). -/
theorem withdrawAlert_of_none (h : l.any (Entry.isAlertOf j) = false) : withdrawAlert j l = l :=
  List.filter_eq_self.mpr fun e he => by simpa using List.any_eq_false.mp h e he

/-- A fold changes the job's pending entry in its place (05 R96). -/
theorem foldAlert_pending (c c' : Class) (v v' : Int) (n n' : Word16) (k : Nat)
    (h : (pre ++ post).any (Entry.isAlertOf j) = false) :
    foldAlert j c v n (pre ++ .alert j c' v' n' k :: post) =
      pre ++ .alert j c v n (bump Config.countLimit k) :: post := by
  rw [List.any_append, Bool.or_eq_false_iff] at h
  obtain ⟨hpre, hpost⟩ := h
  calc foldAlert j c v n (pre ++ .alert j c' v' n' k :: post)
    _ = foldAlert j c v n pre ++ foldAlert j c v n (.alert j c' v' n' k :: post) := List.map_append
    _ = foldAlert j c v n pre ++ .alert j c v n (bump Config.countLimit k) :: foldAlert j c v n post := by
      simp [foldAlert]
    _ = pre ++ .alert j c v n (bump Config.countLimit k) :: post := by
      rw [foldAlert_of_none c v n hpre, foldAlert_of_none c v n hpost]

/-- A withdrawal takes out the job's pending entry, and the others keep their order (05 R99). -/
theorem withdrawAlert_pending (c : Class) (v : Int) (n : Word16) (k : Nat)
    (h : (pre ++ post).any (Entry.isAlertOf j) = false) :
    withdrawAlert j (pre ++ .alert j c v n k :: post) = pre ++ post :=
  calc withdrawAlert j (pre ++ .alert j c v n k :: post)
    _ = withdrawAlert j (pre ++ post) := by simp [withdrawAlert, Entry.isAlertOf]
    _ = pre ++ post := withdrawAlert_of_none h

end

/-! ### A classified result -/

section
variable {j : JobId} {v : Int} {n : Word16} {w : Watch} {l : List Entry}

/-- A result of the current class changes nothing (05 R95). -/
theorem watchResult_same (hc : classify v w.low w.high = w.current) :
    watchResult j v n w l = (w, l) := if_pos hc

/-- A change of class without a pending entry of the job adds one (05 R97). -/
theorem watchResult_new (hc : classify v w.low w.high ≠ w.current)
    (hl : l.any (Entry.isAlertOf j) = false) :
    watchResult j v n w l =
      ({ w with current := classify v w.low w.high },
        l ++ [.alert j (classify v w.low w.high) v n 0]) := by
  simp [watchResult, hc, hl]

/-- A change back to the reported class withdraws the job's pending entry (05 R96, step 3). -/
theorem watchResult_back (hc : classify v w.low w.high ≠ w.current)
    (hl : l.any (Entry.isAlertOf j) = true) (hr : classify v w.low w.high = w.reported) :
    watchResult j v n w l = ({ w with current := classify v w.low w.high }, withdrawAlert j l) :=
  (if_neg hc).trans ((if_pos hl).trans (if_pos hr))

/-- A further change of class folds the job's pending entry (05 R96). -/
theorem watchResult_further (hc : classify v w.low w.high ≠ w.current)
    (hl : l.any (Entry.isAlertOf j) = true) (hr : classify v w.low w.high ≠ w.reported) :
    watchResult j v n w l =
      ({ w with current := classify v w.low w.high },
        foldAlert j (classify v w.low w.high) v n l) :=
  (if_neg hc).trans ((if_pos hl).trans (if_neg hr))

end

/-! ### The statement -/

/-- Settles O33: the cases of the table are those of the outcome, and the job's one pending entry is folded or
taken out where it stands. -/
theorem watchOutcomeFollowsTheTable : Obligations.WatchOutcomeFollowsTheTable := by
  intro j v n w l
  refine ⟨watchResult_same, watchResult_new, ?_⟩
  rintro pre post c' v' n' k hc rfl hother
  have hpending : (pre ++ .alert j c' v' n' k :: post).any (Entry.isAlertOf j) = true := by
    simp [Entry.isAlertOf]
  refine ⟨fun hr => ?_, fun hr hk => ?_⟩
  · rw [watchResult_back hc hpending hr, withdrawAlert_pending c' v' n' k hother]
    rfl
  · rw [watchResult_further hc hpending hr, foldAlert_pending _ c' v v' n n' k hother, bump_eq_min hk]
    rfl

end Sys2Proof.Machine
end

section
/-! SUPPORT. The SET_ commands that load, abort and delete a set (06 R109 to R115). -/

namespace Sys2Proof.Machine

/-- The load context does not see the queue its session's command came from. -/
theorem putLoad_takeCommand (x y : Port) (l : List Command) (o : Option Load) (s : State) :
    putLoad y o (takeCommand x l s) = takeCommand x l (putLoad y o s) :=
  modSession_takeCommand x y l (fun _ _ => rfl) s

/-! ### SET_BEGIN -/

/-- SET_BEGIN on a set id: its checks in order (06 R109). -/
theorem setBegin_id (x : Port) (c : SetId) (l0 l1 : Byte) (s : State) :
    setBegin x [idByte c, l0, l1] s = some
      (if (s.session x).load.isSome then { state := s, status := .loadOpen, data := [idByte c, 0, 0] }
      else if (s.coef c).isSome then { state := s, status := .noSlot, data := [idByte c, 0, 0] }
      else if leNat [l0, l1] = 0 ∨ 4096 < leNat [l0, l1] then
        { state := s, status := .badArg, data := [idByte c, 0, 0] }
      else (allocate (leNat [l0, l1]) s.coefFree).elim
        { state := s, status := .noSpace, data := [idByte c, 0, 0] }
        fun taken =>
          { state := putLoad x (some { set := c, next := 0 }) ({ s with coefFree := taken.2 }.putCoef c
              (some { owner := some x, base := taken.1, length := leNat [l0, l1], refs := 0,
                      phase := .loading }))
            status := .ok
            data := idByte c :: leBytes 2 taken.1 }) := by
  simp only [setBegin, setId?_idByte]
  cases allocate (leNat [l0, l1]) s.coefFree <;> rfl

/-- The state that SET_BEGIN leaves when every check passes (06 R109). -/
theorem begun_takeCommand (x : Port) (l : List Command) (c : SetId) (v : CoefSet) (free : List Extent)
    (s : State) :
    putLoad x (some { set := c, next := 0 })
        ({ takeCommand x l s with coefFree := free }.putCoef c (some v)) =
      takeCommand x l (putLoad x (some { set := c, next := 0 })
        ({ s with coefFree := free }.putCoef c (some v))) :=
  putLoad_takeCommand x x l _ ({ s with coefFree := free }.putCoef c (some v))

/-- Settles O19: the checks of SET_BEGIN one after another, and first fit by `allocate_first`. -/
theorem setBeginChecksAndOpensALoad : Obligations.SetBeginChecksAndOpensALoad := by
  intro s x q id l0 l1 rest h length refused
  have hlen : leNat [l0, l1] = length := leNat_pair l0 l1
  have refuse : ∀ st, setBegin x [id, l0, l1] (takeCommand x rest s) =
      some { state := takeCommand x rest s, status := st, data := [id, 0, 0] } → refused st :=
    fun st ha => congrArg Host.Outcome.next (runCommand_answered h ha)
  refine ⟨fun hid => refuse _ (by simp only [setBegin, setId?_eq_none hid]; rfl), ?_⟩
  rintro c rfl
  have hact := setBegin_id x c l0 l1 (takeCommand x rest s)
  rw [hlen, load_takeCommand, coef_takeCommand, coefFree_takeCommand] at hact
  refine ⟨fun hl => refuse _ (by rw [hact, if_pos hl]), fun hl => ?_⟩
  rw [hl, Option.isSome_none, if_neg Bool.false_ne_true] at hact
  refine ⟨fun hc => refuse _ (by rw [hact, if_pos hc]), fun hc => ?_⟩
  rw [hc, Option.isSome_none, if_neg Bool.false_ne_true] at hact
  refine ⟨fun hbad => refuse _ (by rw [hact, if_pos hbad]), fun hmin hmax => ?_⟩
  rw [if_neg (by omega)] at hact
  refine ⟨fun hfit => refuse _ (by rw [hact, allocate_eq_none hfit, Option.elim_none]), ?_⟩
  intro pre e post hfree hpre he left
  have hall : allocate length s.coefFree = some (e.base, pre ++ left) :=
    hfree ▸ allocate_first length pre post e hpre he
  rw [hall, Option.elim_some, begun_takeCommand] at hact
  exact congrArg Host.Outcome.next (runCommand_answered h hact)

/-! ### SET_DATA -/

/-- A run of cells is written one after another from its base upward (06 R111). -/
theorem Mem.writeAll_eq_foldl (ws : List Word16) (m : Mem) (a k : Nat) :
    m.writeAll (a + k) ws = (ws.zipIdx k).foldl (fun m p => m.write (a + p.2) p.1) m := by
  induction ws generalizing m k with
  | nil => rfl
  | cons w ws ih => exact ih (m.write (a + k) w) (k + 1)

/-- The count byte carries every count whose values fit in a frame (11 Table 11-3). -/
theorem toNat_countByte {n : Nat} (hn : n ≤ 122) : (BitVec.ofNat 8 n).toNat = n := by
  rw [BitVec.toNat_ofNat]; omega

section
variable {x : Port} {s : State}

theorem setData_noLoad {ws : List Word16} (o0 o1 : Byte) (hn : ws.length ≤ 122)
    (hl : (s.session x).load = none) :
    setData x (o0 :: o1 :: BitVec.ofNat 8 ws.length :: bytes16 ws) s =
      some { state := s, status := .noLoad, data := zeros 3 } := by
  simp only [setData, words16_bytes16, toNat_countByte hn, hl, ne_eq, not_true_eq_false, if_false]

/-- SET_DATA with an open load context: its checks in order, and the outcomes of Table 6-3 (06 R110,
R111). -/
theorem setData_load {ws : List Word16} {l : Load} {v : CoefSet} (o0 o1 : Byte) (hn : ws.length ≤ 122)
    (hl : (s.session x).load = some l) (hv : s.coef l.set = some v) :
    setData x (o0 :: o1 :: BitVec.ofNat 8 ws.length :: bytes16 ws) s = some
      (if ws.length = 0 ∨ 120 < ws.length then { state := s, status := .badArg, data := loadData l }
      else if v.length < leNat [o0, o1] + ws.length then
        { state := s, status := .badArg, data := loadData l }
      else if leNat [o0, o1] = l.next then
        { state := putLoad x (some { l with next := l.next + ws.length })
            { s with coefMem := s.coefMem.writeAll (v.base + leNat [o0, o1]) ws }
          status := .ok
          data := loadData { l with next := l.next + ws.length } }
      else if leNat [o0, o1] + ws.length ≤ l.next then
        { state := s, status := .duplicate, data := loadData l }
      else { state := s, status := .outOfSequence, data := loadData l }) := by
  simp only [setData, words16_bytes16, toNat_countByte hn, hl, hv, ne_eq, not_true_eq_false, if_false]

end

/-- The state that an accepted SET_DATA leaves (06 R111). -/
theorem stored_takeCommand (x : Port) (r : List Command) (l : Load) (m : Mem) (s : State) :
    putLoad x (some l) { takeCommand x r s with coefMem := m } =
      takeCommand x r (putLoad x (some l) { s with coefMem := m }) :=
  putLoad_takeCommand x x r (some l) { s with coefMem := m }

/-- Settles O20: the checks of SET_DATA one after another, and the offset against the next one. -/
theorem setDataFollowsTheNextOffset : Obligations.SetDataFollowsTheNextOffset := by
  intro s x q o0 o1 ws rest h hn o
  have ho : leNat [o0, o1] = o := leNat_pair o0 o1
  have hload := load_takeCommand x x rest s
  refine ⟨fun hl => congrArg Host.Outcome.next
    (runCommand_answered h (setData_noLoad o0 o1 hn (hload.trans hl))), ?_⟩
  intro l v hl hv stays
  have hact := setData_load o0 o1 hn (hload.trans hl) ((coef_takeCommand ..).trans hv)
  rw [ho] at hact
  have stay : ∀ st, setData x (o0 :: o1 :: BitVec.ofNat 8 ws.length :: bytes16 ws)
        (takeCommand x rest s) =
      some { state := takeCommand x rest s, status := st, data := loadData l } → stays st :=
    fun st ha => congrArg Host.Outcome.next (runCommand_answered h ha)
  refine ⟨fun hbad => stay _ ?refused, fun hmin hmax hfit => ?_⟩
  case refused =>
    rcases hbad with h0 | hbig | hend
    · rw [hact, if_pos (.inl h0)]
    · rw [hact, if_pos (.inr hbig)]
    · rw [hact, if_pos hend, ite_self]
  rw [if_neg (by omega), if_neg (Nat.not_lt.mpr hfit)] at hact
  refine ⟨fun hnext => ?next, fun hne hbelow => stay _ ?duplicate, fun hne hbeyond => stay _ ?beyond⟩
  case next =>
    have hwrites : (takeCommand x rest s).coefMem.writeAll (v.base + o) ws =
        ws.zipIdx.foldl (fun m p => m.write (v.base + o + p.2) p.1) s.coefMem :=
      Mem.writeAll_eq_foldl ws s.coefMem (v.base + o) 0
    rw [if_pos hnext, hwrites, stored_takeCommand] at hact
    exact congrArg Host.Outcome.next (runCommand_answered h hact)
  case duplicate => rw [hact, if_neg hne, if_pos hbelow]
  case beyond => rw [hact, if_neg hne, if_neg (Nat.not_le.mpr hbeyond)]

/-! ### SET_END -/

/-- The CRC of a set's coefficients is that of the bytes at its addresses (06 R113). -/
theorem setCrc_eq {c : SetId} {v : CoefSet} {s : State} (hv : s.coef c = some v) (n : Nat) :
    setCrc c n s =
      crc16 ((List.range n).flatMap fun k => leBytes 2 (s.readCoef (v.base + k)).toNat) := by
  simp only [setCrc, bytes16, List.flatMap_map, coefAt, hv]

theorem setCrc_takeCommand (x : Port) (l : List Command) (c : SetId) (n : Nat) (s : State) :
    setCrc c n (takeCommand x l s) = setCrc c n s := rfl

section
variable {x : Port} {s : State}

theorem setEnd_noLoad (k0 k1 : Byte) (hl : (s.session x).load = none) :
    setEnd x [k0, k1] s = some { state := s, status := .noLoad, data := zeros 7 } := by
  simp only [setEnd, hl]

/-- SET_END with an open load context (06 R112, R113). -/
theorem setEnd_load {l : Load} {v : CoefSet} (k0 k1 : Byte) (hl : (s.session x).load = some l)
    (hv : s.coef l.set = some v) : setEnd x [k0, k1] s = some
      (if l.next < v.length then
        { state := s, status := .incomplete, data := setEndData l.set l.next 0 0 }
      else if (setCrc l.set v.length s).toNat = leNat [k0, k1] then
        { state := putLoad x none (s.putCoef l.set
            (some { v with refs := 0, phase := .ready false (setCrc l.set v.length s) }))
          status := .ok
          data := setEndData l.set 0 v.length (setCrc l.set v.length s) }
      else
        { state := putLoad x (some { l with next := 0 }) s
          status := .checkFailed
          data := setEndData l.set 0 0 (setCrc l.set v.length s) }) := by
  simp only [setEnd, hl, hv]

end

/-- Settles O21: the next offset against the length, and then the CRC of the coefficients as stored. -/
theorem setEndChecksTheStoredCoefficients : Obligations.SetEndChecksTheStoredCoefficients := by
  intro s x q k0 k1 rest h
  have hload := load_takeCommand x x rest s
  refine ⟨fun hl => congrArg Host.Outcome.next
    (runCommand_answered h (setEnd_noLoad k0 k1 (hload.trans hl))), ?_⟩
  intro l v hl hv crc
  have hact := setEnd_load k0 k1 (hload.trans hl) ((coef_takeCommand ..).trans hv)
  have hcrc : setCrc l.set v.length s = crc := setCrc_eq hv v.length
  rw [setCrc_takeCommand, hcrc, leNat_pair, putCoef_takeCommand, putLoad_takeCommand,
    putLoad_takeCommand] at hact
  refine ⟨fun hless => ?incomplete, fun hall hne => ?differs, fun hall heq => ?agrees⟩
  case incomplete =>
    rw [if_pos hless] at hact
    exact congrArg Host.Outcome.next (runCommand_answered h hact)
  case differs =>
    rw [if_neg (Nat.not_lt.mpr hall), if_neg hne] at hact
    exact congrArg Host.Outcome.next (runCommand_answered h hact)
  case agrees =>
    rw [if_neg (Nat.not_lt.mpr hall), if_pos heq] at hact
    exact congrArg Host.Outcome.next (runCommand_answered h hact)

/-! ### SET_ABORT and SET_DELETE -/

/-- Freeing a set, written out: extent and record (06 R104). -/
theorem freeSet_eq {c : SetId} {v : CoefSet} {s : State} (hv : s.coef c = some v) :
    freeSet c s = { s with coefFree := freeExtent v.base v.length s.coefFree }.putCoef c none := by
  simp only [freeSet, hv]

section
variable {x : Port} {s : State}

theorem setAbort_noLoad (hl : (s.session x).load = none) :
    setAbort x [] s = some { state := s, status := .noLoad, data := zeros 1 } := by
  simp only [setAbort, hl]

/-- SET_ABORT with an open load context (06 R114). -/
theorem setAbort_load {l : Load} (hl : (s.session x).load = some l) : setAbort x [] s = some
    { state := putLoad x none (freeSet l.set s), status := .ok, data := [idByte l.set] } := by
  simp only [setAbort, hl]
  rfl

theorem setDelete_noId {id : Byte} (hid : 16 ≤ id.toNat) :
    setDelete x [id] s = some { state := s, status := .badArg, data := [id] } := by
  simp only [setDelete, setId?_eq_none hid]

theorem setDelete_empty {c : SetId} (hc : s.coef c = none) :
    setDelete x [idByte c] s = some { state := s, status := .notFound, data := [idByte c] } := by
  simp only [setDelete, setId?_idByte, hc]

/-- SET_DELETE on a set that is not EMPTY: its checks in order (06 R115). -/
theorem setDelete_set {c : SetId} {v : CoefSet} (hv : s.coef c = some v) :
    setDelete x [idByte c] s = some
      (if v.foreign x then { state := s, status := .notOwner, data := [idByte c] }
      else if v.phase = .loading then { state := s, status := .wrongState, data := [idByte c] }
      else if v.refs ≠ 0 then { state := s, status := .inUse, data := [idByte c] }
      else { state := freeSet c s, status := .ok, data := [idByte c] }) := by
  simp only [setDelete, setId?_idByte, hv]

end

theorem CoefSet.foreign_iff {x : Port} {v : CoefSet} :
    v.foreign x = true ↔ v.isOrphaned = true ∨ v.owner ≠ some x := by simp [CoefSet.foreign]

/-- A SET_ABORT frees the set of the session's load context, if one is open (06 R114). -/
theorem exec_setAbort {s : State} {x : Port} {q : Byte} {rest : List Command}
    (h : NextIs x q [0x33] rest s) :
    ((s.session x).load = none →
      exec (.setAbort x) s = .next (answered x q .noLoad 0x33 [0] rest s)) ∧
    (∀ l v, (s.session x).load = some l → s.coef l.set = some v →
      exec (.setAbort x) s = .next (answered x q .ok 0x33 [idByte l.set] rest
        (({ s with coefFree := freeExtent v.base v.length s.coefFree }.putCoef l.set
          none).modSession x fun z => { z with load := none }))) := by
  have hload := load_takeCommand x x rest s
  refine ⟨fun hl => congrArg Host.Outcome.next
    (runCommand_answered h (setAbort_noLoad (hload.trans hl))), fun l v hl hv => ?_⟩
  have hact := setAbort_load (hload.trans hl)
  rw [freeSet_takeCommand, putLoad_takeCommand, freeSet_eq hv] at hact
  exact congrArg Host.Outcome.next (runCommand_answered h hact)

/-- Settles O22: SET_ABORT by `exec_setAbort`, the checks of SET_DELETE one after another, and the set freed. -/
theorem setAbortAndSetDeleteFreeASet : Obligations.SetAbortAndSetDeleteFreeASet := by
  intro s x q rest
  refine ⟨exec_setAbort, ?_⟩
  intro id h refused
  have refuse : ∀ st, setDelete x [id] (takeCommand x rest s) =
      some { state := takeCommand x rest s, status := st, data := [id] } → refused st :=
    fun st ha => congrArg Host.Outcome.next (runCommand_answered h ha)
  refine ⟨fun hid => refuse _ (setDelete_noId hid), ?_⟩
  rintro c rfl
  refine ⟨fun hc => refuse _ (setDelete_empty ((coef_takeCommand ..).trans hc)), fun v hv => ?_⟩
  have hact := setDelete_set (x := x) (s := takeCommand x rest s) ((coef_takeCommand ..).trans hv)
  refine ⟨fun hf => refuse _ (by rw [hact, if_pos (CoefSet.foreign_iff.mpr hf)]), fun ho hx => ?_⟩
  have hown : ¬ v.foreign x = true := fun hf => by simp [CoefSet.foreign_iff, ho, hx] at hf
  rw [if_neg hown] at hact
  refine ⟨fun hp => refuse _ (by rw [hact, if_pos hp]), fun hp => ?_⟩
  rw [if_neg hp] at hact
  refine ⟨fun hrefs => refuse _ (by rw [hact, if_pos hrefs]), fun hrefs => ?_⟩
  rw [if_neg (not_not.mpr hrefs), freeSet_takeCommand, freeSet_eq hv] at hact
  exact congrArg Host.Outcome.next (runCommand_answered h hact)

end Sys2Proof.Machine
end

section
/-! SUPPORT. One memory as its free entries and the extents that its objects hold: the law of extents, memory
by memory, and what first fit and the return of an extent keep of it (07 R122 to R125). -/

namespace Sys2Proof.Machine

/-! ### Free lists -/

theorem freeListOrdered_cons (e : Extent) (l : List Extent) : FreeListOrdered (e :: l) ↔
    0 < e.size ∧ (∀ f ∈ l, e.base + e.size < f.base) ∧ FreeListOrdered l := by
  induction l generalizing e with
  | nil => simp [FreeListOrdered]
  | cons f l ih =>
    rw [FreeListOrdered, ih f, List.forall_mem_cons]
    refine ⟨fun ⟨he, hef, hf, hl, hord⟩ => ⟨he, ⟨hef, fun g hg => ?_⟩, hf, hl, hord⟩,
      fun ⟨he, ⟨hef, _⟩, hord⟩ => ⟨he, hef, hord⟩⟩
    have := hl g hg
    omega

theorem size_pos_of_ordered {l : List Extent} (hord : FreeListOrdered l) : ∀ e ∈ l, 0 < e.size := by
  induction l with
  | nil => exact fun _ h => absurd h List.not_mem_nil
  | cons e l ih =>
    obtain ⟨he, -, hl⟩ := (freeListOrdered_cons e l).mp hord
    exact List.forall_mem_cons.mpr ⟨he, ih hl⟩

/-- An address that a list does not cover lies in none of its entries. -/
theorem not_mem_entry_of_freeCover {l : List Extent} {a : Nat} (h : freeCover l a = 0) {e : Extent}
    (he : e ∈ l) : ¬ (e.base ≤ a ∧ a < e.base + e.size) := by
  simpa using List.filter_eq_nil_iff.mp (List.length_eq_zero_iff.mp h) e he

/-- First fit lowers the start of no entry (R124). -/
theorem lt_base_of_mem_allocate {n b k : Nat} {l l' : List Extent} (h : allocate n l = some (b, l'))
    (hk : ∀ e ∈ l, k < e.base) : ∀ e ∈ l', k < e.base := by
  obtain ⟨pre, e, post, rfl, -, -, -, rfl⟩ := allocate_cases h
  simp only [List.forall_mem_append, List.forall_mem_cons] at hk ⊢
  obtain ⟨hpre, he, hpost⟩ := hk
  refine ⟨hpre, ?_⟩
  split
  · exact hpost
  · exact List.forall_mem_cons.mpr ⟨Nat.lt_add_right n he, hpost⟩

/-- First fit leaves the list in order (R122, R124). -/
theorem freeListOrdered_allocate {n b : Nat} {l l' : List Extent} (hord : FreeListOrdered l)
    (h : allocate n l = some (b, l')) : FreeListOrdered l' := by
  induction l generalizing l' with
  | nil => cases h
  | cons e rest ih =>
    obtain ⟨he, hlt, hrest⟩ := (freeListOrdered_cons e rest).mp hord
    unfold allocate at h
    split at h
    · split at h <;> cases h
      · exact hrest
      · refine (freeListOrdered_cons _ rest).mpr ⟨by simp only; omega, fun f hf => ?_, hrest⟩
        have := hlt f hf
        simp only
        omega
    · simp only [Option.map_eq_some_iff, Prod.mk.injEq] at h
      obtain ⟨⟨c, m⟩, hm, rfl, rfl⟩ := h
      exact (freeListOrdered_cons e m).mpr ⟨he, lt_base_of_mem_allocate hm hlt, ih hrest hm⟩

/-- The entries of a list to which an extent returns start above what its entries and the extent start
above (R125). -/
theorem lt_base_of_mem_freeExtent {b n k : Nat} {l : List Extent} (hb : k < b)
    (hk : ∀ e ∈ l, k < e.base) : ∀ e ∈ freeExtent b n l, k < e.base := by
  induction l with
  | nil => simpa [freeExtent] using hb
  | cons e rest ih =>
    obtain ⟨he, hrest⟩ := List.forall_mem_cons.mp hk
    unfold freeExtent
    split
    · exact List.forall_mem_cons.mpr ⟨hb, hk⟩
    split
    · exact List.forall_mem_cons.mpr ⟨hb, hrest⟩
    split
    · cases rest with
      | nil => exact List.forall_mem_cons.mpr ⟨he, hrest⟩
      | cons f rest =>
        simp only
        split
        · exact List.forall_mem_cons.mpr ⟨he, (List.forall_mem_cons.mp hrest).2⟩
        · exact List.forall_mem_cons.mpr ⟨he, hrest⟩
    · exact List.forall_mem_cons.mpr ⟨he, ih hrest⟩

/-- An extent that overlaps no entry returns in its place, and joins the neighbours it touches
(R122, R125). -/
theorem freeListOrdered_freeExtent {b n : Nat} {l : List Extent} (hord : FreeListOrdered l) (hn : 0 < n)
    (hfree : ∀ e ∈ l, e.base + e.size ≤ b ∨ b + n ≤ e.base) : FreeListOrdered (freeExtent b n l) := by
  induction l with
  | nil => exact hn
  | cons e rest ih =>
    obtain ⟨he, hlt, hrest⟩ := (freeListOrdered_cons e rest).mp hord
    obtain ⟨hbe, hfree⟩ := List.forall_mem_cons.mp hfree
    unfold freeExtent
    split
    case isTrue hbelow => exact (freeListOrdered_cons _ _).mpr ⟨hn, List.forall_mem_cons.mpr
      ⟨hbelow, fun f hf => by have := hlt f hf; simp only; omega⟩, hord⟩
    split
    case isTrue hjoin =>
      exact (freeListOrdered_cons _ _).mpr
        ⟨by simp only; omega, fun f hf => by have := hlt f hf; simp only; omega, hrest⟩
    split
    case isTrue hjoin =>
      cases rest with
      | nil => exact Nat.add_pos_left he n
      | cons f rest =>
        obtain ⟨hf, hflt, hrest'⟩ := (freeListOrdered_cons f rest).mp hrest
        obtain ⟨hef, -⟩ := List.forall_mem_cons.mp hlt
        obtain ⟨hbf, -⟩ := List.forall_mem_cons.mp hfree
        simp only
        split
        case isTrue hjoin' =>
          exact (freeListOrdered_cons _ _).mpr
            ⟨by simp only; omega, fun g hg => by have := hflt g hg; simp only; omega, hrest'⟩
        case isFalse hapart =>
          refine (freeListOrdered_cons _ _).mpr
            ⟨by simp only; omega, List.forall_mem_cons.mpr ⟨by simp only; omega, fun g hg => ?_⟩, hrest⟩
          have := hflt g hg
          simp only
          omega
    exact (freeListOrdered_cons _ _).mpr
      ⟨he, lt_base_of_mem_freeExtent (by omega) hlt, ih hrest hfree⟩

theorem freeCover_singleton (e : Extent) (a : Nat) :
    freeCover [e] a = if e.base ≤ a ∧ a < e.base + e.size then 1 else 0 := by
  rw [freeCover_cons, freeCover_nil, Nat.add_zero]

/-! ### One memory -/

/-- One memory: its free entries, and the extent that the object of each id holds (07 R122). -/
structure Allotment (n : Nat) where
  free : List Extent
  held : Fin n → Option Extent

/-- The extents in use, in the order of their objects' ids. -/
def Allotment.inUse {n : Nat} (m : Allotment n) : List Extent := (List.finRange n).filterMap m.held

/-- The law of one memory of a size: free entries and extents in use together cover each of its addresses
once and no other, and neither is empty (07 R122). -/
structure Allotment.Sound {n : Nat} (m : Allotment n) (size : Nat) : Prop where
  ordered : FreeListOrdered m.free
  once : ∀ a, freeCover m.free a + freeCover m.inUse a = if a < size then 1 else 0
  held_pos : ∀ i e, m.held i = some e → 0 < e.size

/-- The memory with another free list, and with another extent, or none, held under an id. -/
def Allotment.put {n : Nat} (m : Allotment n) (free : List Extent) (i : Fin n) (o : Option Extent) :
    Allotment n := { free := free, held := Function.update m.held i o }

theorem Allotment.put_held {n : Nat} (m : Allotment n) (i : Fin n) : m.put m.free i (m.held i) = m := by
  simp [Allotment.put]

/-- The addresses in use change with the one extent that is replaced. -/
theorem Allotment.freeCover_inUse_put {n : Nat} (m : Allotment n) (free : List Extent) (i : Fin n)
    (o : Option Extent) (a : Nat) : freeCover (m.put free i o).inUse a + freeCover (m.held i).toList a =
      freeCover m.inUse a + freeCover o.toList a := by
  obtain ⟨pre, post, hids⟩ := List.append_of_mem (List.mem_finRange i)
  have hi := (List.nodup_cons.mp (List.nodup_middle.mp (hids ▸ List.nodup_finRange n))).1
  have same : ∀ l ⊆ pre ++ post, l.filterMap (Function.update m.held i o) = l.filterMap m.held :=
    fun l hl => List.filterMap_congr fun k hk =>
      Function.update_of_ne (ne_of_mem_of_not_mem (hl hk) hi) _ _
  have head : ∀ f : Fin n → Option Extent,
      (i :: post).filterMap f = (f i).toList ++ post.filterMap f := fun f => by
    cases h : f i <;> simp [h]
  simp only [inUse, put, hids, List.filterMap_append, head, freeCover_append, same pre (by simp),
    same post (by simp), Function.update_self]
  omega

/-- First fit hands an extent to an id that holds none (R124). -/
theorem Allotment.Sound.allocate {n size k b : Nat} {m : Allotment n} (h : m.Sound size) {i : Fin n}
    {l : List Extent} (hi : m.held i = none) (hk : 0 < k) (ha : allocate k m.free = some (b, l)) :
    (m.put l i (some { base := b, size := k })).Sound size where
  ordered := freeListOrdered_allocate h.ordered ha
  once a := by
    have hfree := freeCover_allocate hk ha a
    have hused := m.freeCover_inUse_put l i (some { base := b, size := k }) a
    simp only [hi, Option.toList_none, Option.toList_some, freeCover_nil, freeCover_singleton] at hused
    rw [← h.once a]
    simp only [Allotment.put] at hused ⊢
    omega
  held_pos := by
    intro j e hj
    simp only [Allotment.put, Function.update_apply] at hj
    split at hj
    · cases hj; exact hk
    · exact h.held_pos j e hj

/-- No free entry overlaps an extent in use (R122). -/
theorem Allotment.Sound.apart {n size : Nat} {m : Allotment n} (h : m.Sound size) {i : Fin n} {d : Extent}
    (hi : m.held i = some d) {e : Extent} (he : e ∈ m.free) :
    e.base + e.size ≤ d.base ∨ d.base + d.size ≤ e.base := by
  by_contra hover
  have hd := h.held_pos i d hi
  have hsize := size_pos_of_ordered h.ordered e he
  have hused := m.freeCover_inUse_put m.free i none (max d.base e.base)
  simp only [hi, Option.toList_none, Option.toList_some, freeCover_nil, freeCover_singleton] at hused
  have honce := h.once (max d.base e.base)
  have hboth : freeCover m.free (max d.base e.base) = 0 := by
    rw [if_pos (by omega)] at hused
    split at honce <;> omega
  have := not_mem_entry_of_freeCover hboth he
  omega

/-- The extent of an id returns to the free list (R125). -/
theorem Allotment.Sound.release {n size : Nat} {m : Allotment n} (h : m.Sound size) {i : Fin n} {d : Extent}
    (hi : m.held i = some d) : (m.put (freeExtent d.base d.size m.free) i none).Sound size where
  ordered := freeListOrdered_freeExtent h.ordered (h.held_pos i d hi) fun _ he => h.apart hi he
  once a := by
    have hfree := freeCover_freeExtent d.base d.size m.free a
    have hused := m.freeCover_inUse_put (freeExtent d.base d.size m.free) i none a
    simp only [hi, Option.toList_none, Option.toList_some, freeCover_nil, freeCover_singleton] at hused
    rw [← h.once a]
    simp only [Allotment.put] at hused ⊢
    omega
  held_pos := by
    intro j e hj
    simp only [Allotment.put, Function.update_apply] at hj
    split at hj
    · cases hj
    · exact h.held_pos j e hj

/-! ### The law, memory by memory -/

/-- The extent of an ACTIVE ring (01 R3). -/
def Ring.extent (g : Ring) : Extent := { base := g.base, size := g.capacity }

/-- The extent of a LOADING or READY set (06 R105). -/
def CoefSet.extent (v : CoefSet) : Extent := { base := v.base, size := v.length }

/-- Sample memory: its free list and the extents of the rings. -/
def State.sampleAllotment (s : State) : Allotment 8 :=
  { free := s.sampleFree, held := fun r => (s.ring r).map Ring.extent }

/-- Coefficient memory: its free list and the extents of the sets. -/
def State.coefAllotment (s : State) : Allotment 16 :=
  { free := s.coefFree, held := fun c => (s.coef c).map CoefSet.extent }

/-- The allotment of sample memory under a new free list and a new record of one ring. -/
theorem sampleAllotment_putRing (s : State) (free : List Extent) (r : RingId) (v : Option Ring) :
    ({ s with sampleFree := free }.putRing r v).sampleAllotment =
      s.sampleAllotment.put free r (v.map Ring.extent) := by
  simp only [State.sampleAllotment, Allotment.put, State.sampleFree_putRing, Allotment.mk.injEq, true_and]
  funext k
  rw [State.ring_putRing, Function.update_apply]
  split <;> rfl

/-- The allotment of coefficient memory under a new free list and a new record of one set. -/
theorem coefAllotment_putCoef (s : State) (free : List Extent) (c : SetId) (v : Option CoefSet) :
    ({ s with coefFree := free }.putCoef c v).coefAllotment =
      s.coefAllotment.put free c (v.map CoefSet.extent) := by
  simp only [State.coefAllotment, Allotment.put, State.coefFree_putCoef, Allotment.mk.injEq, true_and]
  funext k
  rw [State.coef_putCoef, Function.update_apply]
  split <;> rfl

theorem ringCover_eq (s : State) (a : Nat) : ringCover s a = freeCover s.sampleAllotment.inUse a := by
  simp only [ringCover, freeCover, allRings, Allotment.inUse, State.sampleAllotment,
    ← List.countP_eq_length_filter, List.countP_filterMap]
  congr 1
  funext r
  cases s.ring r <;> rfl

theorem setCover_eq (s : State) (a : Nat) : setCover s a = freeCover s.coefAllotment.inUse a := by
  simp only [setCover, freeCover, allSets, Allotment.inUse, State.coefAllotment,
    ← List.countP_eq_length_filter, List.countP_filterMap]
  congr 1
  funext c
  cases s.coef c <;> rfl

/-- The law of extents is the law of each memory. -/
theorem extentLaw_iff (s : State) : ExtentLaw s ↔
    s.sampleAllotment.Sound Config.sampleMemorySize ∧ s.coefAllotment.Sound Config.coefMemorySize := by
  constructor
  · intro h
    refine ⟨⟨h.sampleOrdered, fun a => ringCover_eq s a ▸ h.sampleOnce a, fun r e he => ?_⟩,
      ⟨h.coefOrdered, fun a => setCover_eq s a ▸ h.coefOnce a, fun c e he => ?_⟩⟩
    · obtain ⟨g, hg, rfl⟩ := Option.map_eq_some_iff.mp he
      exact h.ringSize r g hg
    · obtain ⟨v, hv, rfl⟩ := Option.map_eq_some_iff.mp he
      exact h.setSize c v hv
  · intro ⟨hr, hc⟩
    exact ⟨hr.ordered, fun a => ringCover_eq s a ▸ hr.once a, hc.ordered,
      fun a => setCover_eq s a ▸ hc.once a,
      fun r g hg => hr.held_pos r g.extent (congrArg (Option.map Ring.extent) hg),
      fun c v hv => hc.held_pos c v.extent (congrArg (Option.map CoefSet.extent) hv)⟩

end Sys2Proof.Machine
end

section
/-! SUPPORT. What leaves the free lists and the extents of rings and sets: the result unit, the scheduler,
evictions, samples, sending and the transmitters (01, 02, 03, 04, 09, 10). -/

namespace Sys2Proof.Machine

/-! ### The allotments of both memories -/

/-- Sample memory and coefficient memory, all that the law of extents sees. -/
def State.allotments (s : State) : Allotment 8 × Allotment 16 := (s.sampleAllotment, s.coefAllotment)

/-- A ring's record is replaced by one with the same extent. -/
theorem allotments_putRing {r : RingId} {g : Ring} {s : State}
    (h : (s.ring r).map Ring.extent = some g.extent) :
    (s.putRing r (some g)).allotments = s.allotments := by
  have hput : (s.putRing r (some g)).sampleAllotment = s.sampleAllotment := by
    refine (sampleAllotment_putRing s s.sampleFree r (some g)).trans ?_
    rw [Option.map_some, ← h]
    exact s.sampleAllotment.put_held r
  exact congrArg (·, s.coefAllotment) hput

/-- A set's record is replaced by one with the same extent. -/
theorem allotments_putCoef {c : SetId} {v : CoefSet} {s : State}
    (h : (s.coef c).map CoefSet.extent = some v.extent) :
    (s.putCoef c (some v)).allotments = s.allotments := by
  have hput : (s.putCoef c (some v)).coefAllotment = s.coefAllotment := by
    refine (coefAllotment_putCoef s s.coefFree c (some v)).trans ?_
    rw [Option.map_some, ← h]
    exact s.coefAllotment.put_held c
  exact congrArg (s.sampleAllotment, ·) hput

@[simp] theorem allotments_putJob (s : State) (j : JobId) (v : Option Job) :
    (s.putJob j v).allotments = s.allotments := rfl

@[simp] theorem allotments_putSession (s : State) (x : Port) (z : Session) :
    (s.putSession x z).allotments = s.allotments := rfl

@[simp] theorem allotments_modSession (s : State) (x : Port) (f : Session → Session) :
    (s.modSession x f).allotments = s.allotments := rfl

@[simp] theorem allotments_modPort (s : State) (p : Port) (f : PortState → PortState) :
    (s.modPort p f).allotments = s.allotments := rfl

theorem allotments_foldl {α : Type} {f : State → α → State}
    (h : ∀ s a, (f s a).allotments = s.allotments) (l : List α) (s : State) :
    (l.foldl f s).allotments = s.allotments := by
  induction l generalizing s with
  | nil => rfl
  | cons a l ih => exact (ih _).trans (h s a)

/-! ### The result unit (04) -/

@[simp] theorem allotments_moveHeld (x : Port) (j : JobId) (rest : List JobId) (s : State) :
    (moveHeld x j rest s).allotments = s.allotments := by
  unfold moveHeld
  split
  · split <;> rfl
  · rfl

@[simp] theorem allotments_heldMove (x : Port) (s : State) :
    (heldMove x s).allotments = s.allotments := by
  unfold heldMove
  generalize (s.session x).heldOrder = l
  induction l generalizing s with
  | nil => rfl
  | cons j rest ih => unfold heldMoves; split <;> simp [ih]

@[simp] theorem allotments_resultsCheck (x : Port) (before : List Record) (s : State) :
    (resultsCheck x before s).allotments = s.allotments := by
  unfold resultsCheck
  simp only
  split
  · rfl
  · split <;> rfl

@[simp] theorem allotments_purge (x : Port) (j : JobId) (s : State) :
    (purge x j s).allotments = s.allotments := by
  unfold purge
  simp only [allotments_resultsCheck]
  split <;> simp

@[simp] theorem allotments_removeOldest (x : Port) (k : Nat) (s : State) :
    (removeOldest x k s).allotments = s.allotments := by
  unfold removeOldest
  simp only [allotments_resultsCheck]
  split <;> simp

@[simp] theorem allotments_postResult (j : JobId) (b : Job) (r : Record) (s : State) :
    (postResult j b r s).allotments = s.allotments := by
  unfold postResult
  simp only
  split <;> simp

/-! ### The run scheduler (03) -/

@[simp] theorem allotments_abandon (j : JobId) (b : Job) (s : State) :
    (abandon j b s).allotments = s.allotments := by
  unfold abandon
  cases b.state <;> rfl

@[simp] theorem allotments_startStep (s : State) : (startStep s).allotments = s.allotments := by
  unfold startStep
  cases s.psu with
  | some run => rfl
  | none =>
    cases nextToRun s with
    | none => rfl
    | some t =>
      simp only [startJob]
      cases s.job t.2 with
      | none => rfl
      | some b => simp only; cases runOf t.2 b <;> rfl

@[simp] theorem allotments_segmentEnd (b : Job) (run : Run) (s : State) :
    (segmentEnd b run s).allotments = s.allotments := by
  unfold segmentEnd
  simp only
  split <;> rfl

@[simp] theorem allotments_runEnd (b : Job) (run : Run) (s : State) :
    (runEnd b run s).allotments = s.allotments := by
  unfold runEnd
  simp only [allotments_postResult]
  rfl

/-! ### Evictions, triggers, countdowns and samples (01 R11 to R16, 02 R34 to R39) -/

@[simp] theorem allotments_evictAll (r : RingId) (js : List JobId) (s : State) :
    (evictAll r js s).allotments = s.allotments := by
  refine allotments_foldl (fun s j => ?_) js s
  unfold evict
  cases s.job j <;> simp

@[simp] theorem allotments_evictOverwritten (r : RingId) (g : Ring) (s : State) :
    (evictOverwritten r g s).allotments = s.allotments := by
  unfold evictOverwritten
  split <;> simp

@[simp] theorem allotments_trigger (j : JobId) (b : Job) (head fill : Nat) (s : State) :
    (trigger j b head fill s).allotments = s.allotments := by
  unfold trigger
  split
  · rfl
  · cases b.state <;> rfl

@[simp] theorem allotments_countdownStep (r : RingId) (head fill : Nat) (s : State) :
    (countdownStep r head fill s).allotments = s.allotments := by
  refine allotments_foldl (fun s j => ?_) allJobs s
  unfold countdownJob
  cases s.job j with
  | none => rfl
  | some b =>
    simp only
    split
    · split <;> simp
    · rfl

/-- A sample is stored in a ring with the extent of the record given (01 R2, R3). -/
theorem allotments_writeSample {r : RingId} {g : Ring} {s : State} (v : Word16)
    (h : (s.ring r).map Ring.extent = some g.extent) :
    (writeSample r g v s).allotments = s.allotments := by
  unfold writeSample
  rw [allotments_countdownStep]
  exact allotments_putRing h

@[simp] theorem allotments_writeSamples (r : RingId) (ws : List Word16) (n : Nat) (s : State) :
    (writeSamples r ws n s).2.allotments = s.allotments := by
  induction ws generalizing n s with
  | nil => rfl
  | cons v ws ih =>
    unfold writeSamples
    cases hr : s.ring r with
    | none => rfl
    | some g =>
      simp only
      split
      · exact (ih _ _).trans (allotments_writeSample v (congrArg (Option.map Ring.extent) hr))
      · rfl

/-! ### Sending and the transmitters (09 R157, R159; 10 R174 to R180) -/

@[simp] theorem allotments_reportClass (e : Entry) (s : State) :
    (reportClass e s).allotments = s.allotments := by
  unfold reportClass
  split
  · split
    · split <;> rfl
    · rfl
  · rfl

@[simp] theorem allotments_arbiter (p : Port) (s : State) :
    (arbiter p s).2.allotments = s.allotments := by
  unfold arbiter
  cases (s.port p).fifo with
  | cons f rest => rfl
  | nil =>
    cases offer p s with
    | again n => rfl
    | fresh e rest => exact allotments_reportClass e s
    | nothing => rfl

@[simp] theorem allotments_finish (s : State) : (finish s).allotments = s.allotments := by
  unfold finish askU
  cases (startStep s).txU with
  | some f => exact allotments_startStep s
  | none => exact (allotments_arbiter .u _).trans (allotments_startStep s)

@[simp] theorem allotments_askS (s : State) : (askS s).allotments = s.allotments := by
  have h := allotments_arbiter .s s
  unfold askS
  rcases ha : arbiter .s s with ⟨f, s'⟩
  rw [ha] at h
  cases f <;> exact h

@[simp] theorem allotments_noticeSent (x : Port) (f : Frame) (s : State) :
    (noticeSent x f s).allotments = s.allotments := by
  unfold noticeSent
  split <;> rfl

@[simp] theorem allotments_endS (s : State) : (endS s).allotments = s.allotments := by
  unfold endS
  cases s.txS.current with
  | none => rfl
  | some o =>
    simp only
    split
    · exact allotments_noticeSent _ _ _
    · rfl

@[simp] theorem allotments_startExchange (s : State) : (startExchange s).allotments = s.allotments := by
  have h : (select (endS s)).allotments = s.allotments := allotments_endS s
  unfold startExchange
  simp only
  split
  · exact (allotments_askS _).trans h
  · exact h

@[simp] theorem allotments_exchangeS (s : State) : (exchangeS s).allotments = s.allotments := by
  unfold exchangeS
  simp only
  split <;> exact allotments_startExchange s

/-! ### Arrivals and ports (08 R136 to R141, 09 R160 to R162, 10 R171, R176) -/

@[simp] theorem allotments_placeIfRoom (x : Port) (f : Frame) (s : State) :
    (placeIfRoom x f s).allotments = s.allotments := by
  unfold placeIfRoom
  split <;> rfl

@[simp] theorem allotments_accept (x : Port) (f : Frame) (s : State) :
    (accept x f s).allotments = s.allotments := by
  unfold accept
  simp only
  split
  · split <;> simp
  · split
    · rfl
    · split <;> simp

@[simp] theorem allotments_arriveAck (x : Port) (f : Frame) (s : State) :
    (arriveAck x f s).allotments = s.allotments := by
  unfold arriveAck
  split
  · cases younger f.seq (s.session x).inFlight <;> rfl
  · rfl

@[simp] theorem allotments_breakPartial (p : Port) (s : State) :
    (breakPartial p s).allotments = s.allotments := by
  unfold breakPartial
  split <;> rfl

end Sys2Proof.Machine
end

section
/-! SUPPORT. What frees and allots extents keeps the law of extents, and so does every happening (07 R122,
R124, R125). -/

namespace Sys2Proof.Machine

/-! ### What keeps the law -/

/-- If the first state meets the law of extents, so does the second. -/
def KeepsExtents (s t : State) : Prop := ExtentLaw s → ExtentLaw t

theorem KeepsExtents.refl (s : State) : KeepsExtents s s := id

theorem KeepsExtents.trans {s t u : State} (h : KeepsExtents s t) (h' : KeepsExtents t u) :
    KeepsExtents s u := h' ∘ h

/-- The law sees the allotments alone. -/
theorem KeepsExtents.of_same {s t : State} (h : t.allotments = s.allotments) : KeepsExtents s t :=
  fun hs => by
    obtain ⟨hsample, hcoef⟩ := Prod.mk.inj h
    rw [extentLaw_iff] at hs ⊢
    rwa [hsample, hcoef]

theorem KeepsExtents.then_same {s t u : State} (h : KeepsExtents s t) (h' : u.allotments = t.allotments) :
    KeepsExtents s u := h.trans (.of_same h')

theorem KeepsExtents.finish {s t : State} (h : KeepsExtents s t) : KeepsExtents s (finish t) :=
  h.then_same (allotments_finish t)

theorem KeepsExtents.foldl {α : Type} {f : State → α → State} (h : ∀ s a, KeepsExtents s (f s a))
    (l : List α) (s : State) : KeepsExtents s (l.foldl f s) := by
  induction l generalizing s with
  | nil => exact .refl s
  | cons a l ih => exact (h s a).trans (ih _)

/-- Where the allotments are the same, so is the extent of a ring. -/
theorem map_extent_ring {s t : State} (h : t.allotments = s.allotments) (r : RingId) :
    (t.ring r).map Ring.extent = (s.ring r).map Ring.extent :=
  congrArg (fun m : Allotment 8 × Allotment 16 => m.1.held r) h

/-! ### Extents that come and go (01 R1, R17; 06 R104, R109) -/

theorem keepsExtents_freeRing (r : RingId) (s : State) : KeepsExtents s (freeRing r s) := by
  intro hs
  cases hr : s.ring r with
  | none => simpa only [freeRing, hr] using hs
  | some g =>
    obtain ⟨hsample, hcoef⟩ := (extentLaw_iff s).mp hs
    have hheld : s.sampleAllotment.held r = some g.extent := congrArg (Option.map Ring.extent) hr
    have hfree : ExtentLaw
        ({ s with sampleFree := freeExtent g.base g.capacity s.sampleFree }.putRing r none) :=
      (extentLaw_iff _).mpr ⟨sampleAllotment_putRing .. ▸ hsample.release hheld, hcoef⟩
    refine KeepsExtents.of_same ?_ hfree
    rw [freeRing_eq hr]
    cases g.source <;> rfl

theorem keepsExtents_freeSet (c : SetId) (s : State) : KeepsExtents s (freeSet c s) := by
  intro hs
  cases hc : s.coef c with
  | none => simpa only [freeSet, hc] using hs
  | some v =>
    obtain ⟨hsample, hcoef⟩ := (extentLaw_iff s).mp hs
    have hheld : s.coefAllotment.held c = some v.extent := congrArg (Option.map CoefSet.extent) hc
    rw [freeSet_eq hc]
    exact (extentLaw_iff _).mpr ⟨hsample, coefAllotment_putCoef .. ▸ hcoef.release hheld⟩

/-- A ring is created on the extent that first fit hands out (01 R17). -/
theorem keepsExtents_createRing {r : RingId} {g : Ring} {s : State} {free : List Extent}
    (hr : s.ring r = none) (hg : 0 < g.capacity)
    (ha : allocate g.capacity s.sampleFree = some (g.base, free)) :
    KeepsExtents s ({ s with sampleFree := free }.putRing r (some g)) := by
  intro hs
  obtain ⟨hsample, hcoef⟩ := (extentLaw_iff s).mp hs
  have hheld : s.sampleAllotment.held r = none := congrArg (Option.map Ring.extent) hr
  exact (extentLaw_iff _).mpr ⟨sampleAllotment_putRing .. ▸ hsample.allocate hheld hg ha, hcoef⟩

/-- A set begins to load on the extent that first fit hands out (06 R109). -/
theorem keepsExtents_createSet {c : SetId} {v : CoefSet} {s : State} {free : List Extent}
    (hc : s.coef c = none) (hv : 0 < v.length)
    (ha : allocate v.length s.coefFree = some (v.base, free)) :
    KeepsExtents s ({ s with coefFree := free }.putCoef c (some v)) := by
  intro hs
  obtain ⟨hsample, hcoef⟩ := (extentLaw_iff s).mp hs
  have hheld : s.coefAllotment.held c = none := congrArg (Option.map CoefSet.extent) hc
  exact (extentLaw_iff _).mpr ⟨hsample, coefAllotment_putCoef .. ▸ hcoef.allocate hheld hv ha⟩

/-- After RSTN each memory is one free extent (07 R122). -/
theorem extentLaw_afterReset (baud : Level) (lines : Lines) (epoch : Nat) :
    ExtentLaw (State.afterReset baud lines epoch) := by
  have whole : ∀ {n size : Nat} (held : Fin n → Option Extent), (∀ i, held i = none) → 0 < size →
      (Allotment.mk [{ base := 0, size := size }] held).Sound size := by
    intro n size held hnone hsize
    have hused : Allotment.inUse { free := [{ base := 0, size := size }], held := held } = [] :=
      List.filterMap_eq_nil_iff.mpr fun i _ => hnone i
    exact ⟨hsize, fun a => by simp [hused, freeCover_singleton], fun i e he => by simp [hnone i] at he⟩
  exact (extentLaw_iff _).mpr
    ⟨whole _ (fun r => congrArg (Option.map Ring.extent) (Table.look_replicate none r)) (by decide),
      whole _ (fun c => congrArg (Option.map CoefSet.extent) (Table.look_replicate none c)) (by decide)⟩

/-! ### References (01 R6, R7; 06 R106, R107) -/

theorem allotments_refRing (r : RingId) (s : State) : (refRing r s).allotments = s.allotments := by
  unfold refRing
  cases hr : s.ring r with
  | none => rfl
  | some g => exact allotments_putRing (congrArg (Option.map Ring.extent) hr)

theorem allotments_refSet (c : SetId) (s : State) : (refSet c s).allotments = s.allotments := by
  unfold refSet
  cases hc : s.coef c with
  | none => rfl
  | some v => exact allotments_putCoef (congrArg (Option.map CoefSet.extent) hc)

theorem keepsExtents_unrefRing (r : RingId) (s : State) : KeepsExtents s (unrefRing r s) := by
  unfold unrefRing
  cases hr : s.ring r with
  | none => exact .refl s
  | some g =>
    have h1 : KeepsExtents s (s.putRing r (some { g with refs := g.refs - 1 })) :=
      .of_same (allotments_putRing (congrArg (Option.map Ring.extent) hr))
    simp only
    split
    · exact h1.trans (keepsExtents_freeRing r _)
    · exact h1

theorem keepsExtents_unrefSet (c : SetId) (s : State) : KeepsExtents s (unrefSet c s) := by
  unfold unrefSet
  cases hc : s.coef c with
  | none => exact .refl s
  | some v =>
    have h1 : KeepsExtents s (s.putCoef c (some { v with refs := v.refs - 1 })) :=
      .of_same (allotments_putCoef (congrArg (Option.map CoefSet.extent) hc))
    simp only
    split
    · exact h1.trans (keepsExtents_freeSet c _)
    · exact h1

/-! ### Deletion and teardown (02 R45, 08 R149) -/

theorem keepsExtents_deleteJob (j : JobId) (s : State) : KeepsExtents s (deleteJob j s) := by
  unfold deleteJob
  cases s.job j with
  | none => exact .refl s
  | some b =>
    have hend : (endFire j b s).allotments = s.allotments := by
      unfold endFire
      cases b.state with
      | held r => rfl
      | _ => exact allotments_abandon j b s
    simp only
    have hpurge : KeepsExtents s ((purge b.owner j (endFire j b s)).modSession b.owner fun z =>
        { z with pendingList := withdrawJob j z.pendingList }) :=
      .of_same ((allotments_purge _ _ _).trans hend)
    exact ((hpurge.trans (keepsExtents_unrefRing _ _)).trans (keepsExtents_unrefSet _ _)).then_same
      (allotments_putJob _ j _)

theorem keepsExtents_deleteOwned (x : Port) (s : State) (j : JobId) : KeepsExtents s (deleteOwned x s j) := by
  unfold deleteOwned
  cases s.job j with
  | none => exact .refl s
  | some b =>
    simp only
    split
    · exact keepsExtents_deleteJob j s
    · exact .refl s

theorem keepsExtents_leaveRing (x : Port) (s : State) (r : RingId) : KeepsExtents s (leaveRing x s r) := by
  unfold leaveRing
  cases hr : s.ring r with
  | none => exact .refl s
  | some g =>
    simp only
    split
    · split
      · exact keepsExtents_freeRing r s
      · exact .of_same (allotments_putRing (congrArg (Option.map Ring.extent) hr))
    · exact .refl s

theorem keepsExtents_leaveSet (x : Port) (s : State) (c : SetId) : KeepsExtents s (leaveSet x s c) := by
  unfold leaveSet
  cases hc : s.coef c with
  | none => exact .refl s
  | some v =>
    simp only
    split
    · split
      · split
        · exact keepsExtents_freeSet c s
        · exact .of_same (allotments_putCoef (congrArg (Option.map CoefSet.extent) hc))
      · exact .refl s
    · exact .refl s

theorem keepsExtents_closeLoad (x : Port) (s : State) : KeepsExtents s (closeLoad x s) := by
  unfold closeLoad
  cases (s.session x).load with
  | none => exact .refl s
  | some l => exact (keepsExtents_freeSet l.set s).then_same (allotments_modSession _ x _)

theorem keepsExtents_teardown (x : Port) (s : State) : KeepsExtents s (teardown x s) := by
  have hjobs := (keepsExtents_closeLoad x s).trans (.foldl (keepsExtents_deleteOwned x) allJobs _)
  have hrings := hjobs.trans (.foldl (keepsExtents_leaveRing x) allRings _)
  have hsets := hrings.trans (.foldl (keepsExtents_leaveSet x) allSets _)
  exact hsets.then_same (allotments_putSession _ x _)

theorem keepsExtents_teardownIfOpen (x : Port) (s : State) : KeepsExtents s (teardownIfOpen x s) := by
  unfold teardownIfOpen
  split
  · exact keepsExtents_teardown x s
  · exact .refl s

/-! ### The blocks of the commands -/

/-- A block whose answer keeps the law of extents. -/
def BlockKeepsExtents (act : List Byte → State → Option Answer) : Prop :=
  ∀ args s a, act args s = some a → KeepsExtents s a.state

theorem ChangesNothing.keepsExtents {act : List Byte → State → Option Answer} (h : ChangesNothing act) :
    BlockKeepsExtents act := fun args s a ha => .of_same (by rw [h args s a ha])

/-! A refusal leaves the state, so only what stands behind a block's last check matters. -/

theorem allotments_bindSource (src : Source) (r : RingId) (s : State) :
    (bindSource src r s).allotments = s.allotments := by
  cases src <;> rfl

theorem ringCreate_keepsExtents (x : Port) : BlockKeepsExtents (ringCreate x) := by
  intro args s a h
  unfold ringCreate at h
  split at h <;> cases h
  simp only
  iterate 6 (split; · exact .refl s)
  rename_i r _ hr _ _ _ hcap _ _ _ _ ha
  have hpos : 0 < Config.minCapacity := by decide
  refine KeepsExtents.then_same ?_ (allotments_bindSource _ r _)
  exact keepsExtents_createRing (by simpa using hr) (by simp only [Ring.created]; omega) ha

theorem ringDelete_keepsExtents (x : Port) : BlockKeepsExtents (ringDelete x) := by
  intro args s a h
  unfold ringDelete at h
  split at h <;> cases h
  simp only
  iterate 4 (split; · exact .refl s)
  exact keepsExtents_freeRing _ s

theorem ringFlush_keepsExtents (x : Port) : BlockKeepsExtents (ringFlush x) := by
  intro args s a h
  unfold ringFlush at h
  split at h <;> cases h
  simp only
  iterate 3 (split; · exact .refl s)
  next r _ _ g hr _ =>
  have hevict := allotments_evictAll r (pinners r (fun _ => true) s) s
  refine .of_same ((allotments_putRing ?_).trans hevict)
  rw [map_extent_ring hevict, hr]
  rfl

theorem ringWrite_keepsExtents (x : Port) : BlockKeepsExtents (ringWrite x) := by
  intro args s a h
  unfold ringWrite at h
  split at h
  · split at h
    · cases h
    · split at h <;> cases h
      simp only
      iterate 5 (split; · exact .refl s)
      exact .of_same (allotments_writeSamples _ _ 0 s)
  · cases h

theorem setBegin_keepsExtents (x : Port) : BlockKeepsExtents (setBegin x) := by
  intro args s a h
  unfold setBegin at h
  split at h <;> cases h
  simp only
  iterate 5 (split; · exact .refl s)
  rename_i hc hlen _ _ _ ha
  refine KeepsExtents.then_same ?_ (allotments_modSession _ x _)
  exact keepsExtents_createSet (by simpa using hc) (by simp only; omega) ha

theorem setData_keepsExtents (x : Port) : BlockKeepsExtents (setData x) := by
  intro args s a h
  unfold setData at h
  split at h
  · split at h
    · cases h
    · split at h <;> cases h
      simp only
      iterate 4 (split; · exact .refl s)
      split
      · exact .of_same rfl
      · split <;> exact .refl s
  · cases h

theorem setEnd_keepsExtents (x : Port) : BlockKeepsExtents (setEnd x) := by
  intro args s a h
  unfold setEnd at h
  split at h <;> cases h
  simp only
  iterate 3 (split; · exact .refl s)
  next hv _ =>
  split
  · refine .of_same ((allotments_modSession _ x _).trans (allotments_putCoef ?_))
    exact congrArg (Option.map CoefSet.extent) hv
  · exact .of_same rfl

theorem setAbort_keepsExtents (x : Port) : BlockKeepsExtents (setAbort x) := by
  intro args s a h
  unfold setAbort at h
  split at h <;> cases h
  split
  · exact .refl s
  · exact (keepsExtents_freeSet _ s).then_same (allotments_modSession _ x _)

theorem setDelete_keepsExtents (x : Port) : BlockKeepsExtents (setDelete x) := by
  intro args s a h
  unfold setDelete at h
  split at h <;> cases h
  simp only
  iterate 5 (split; · exact .refl s)
  exact keepsExtents_freeSet _ s

theorem keepsExtents_defineNew (x : Port) (j : JobId) (r : RingId) (c : SetId) (par : Params) (s : State) :
    KeepsExtents s (defineNew x j r c par s) :=
  .of_same ((allotments_refSet c _).trans (allotments_refRing r s))

theorem keepsExtents_redefine (x : Port) (j : JobId) (b : Job) (r : RingId) (c : SetId) (par : Params)
    (s : State) : KeepsExtents s (redefine x j b r c par s) := by
  have hring := (KeepsExtents.of_same (allotments_refRing r s)).trans (keepsExtents_unrefRing b.ring _)
  have hset := (hring.then_same (allotments_refSet c _)).trans (keepsExtents_unrefSet b.set _)
  exact hset.then_same ((allotments_modSession _ x _).trans (allotments_putJob _ j _))

theorem jobDefine_keepsExtents (x : Port) : BlockKeepsExtents (jobDefine x) := by
  intro args s a h
  unfold jobDefine at h
  split at h <;> cases h
  simp only
  iterate 3 (split; · exact .refl s)
  split
  · exact keepsExtents_defineNew x _ _ _ _ s
  · exact keepsExtents_redefine x _ _ _ _ _ s

theorem jobArm_keepsExtents (x : Port) : BlockKeepsExtents (jobArm x) := by
  intro args s a h
  unfold jobArm at h
  split at h <;> cases h
  simp only
  iterate 3 (split; · exact .refl s)
  exact .of_same rfl

theorem jobStart_keepsExtents (x : Port) : BlockKeepsExtents (jobStart x) := by
  intro args s a h
  unfold jobStart at h
  split at h <;> cases h
  simp only
  iterate 3 (split; · exact .refl s)
  exact .of_same rfl

theorem jobCancel_keepsExtents (x : Port) : BlockKeepsExtents (jobCancel x) := by
  intro args s a h
  unfold jobCancel at h
  split at h <;> cases h
  simp only
  split
  · exact .refl s
  · exact .of_same (allotments_abandon _ _ s)

theorem jobDelete_keepsExtents (x : Port) : BlockKeepsExtents (jobDelete x) := by
  intro args s a h
  unfold jobDelete at h
  split at h <;> cases h
  split
  · exact .refl s
  · exact keepsExtents_deleteJob _ s

theorem jobWatch_keepsExtents (x : Port) : BlockKeepsExtents (jobWatch x) := by
  intro args s a h
  unfold jobWatch at h
  split at h <;> cases h
  simp only
  split
  · exact .refl s
  split
  · exact .of_same rfl
  iterate 2 (split; · exact .refl s)
  exact .of_same rfl

theorem fetchBlock_keepsExtents (x : Port) : BlockKeepsExtents (fetchBlock x) := by
  intro args s a h
  unfold fetchBlock at h
  split at h <;> cases h
  simp only
  split
  · exact .refl s
  · exact .of_same (allotments_removeOldest x _ s)

/-! ### The execution of a command (08 R143 to R147) -/

theorem allotments_takeCommand (x : Port) (rest : List Command) (s : State) :
    (takeCommand x rest s).allotments = s.allotments := rfl

theorem allotments_reply (x : Port) (f : Frame) (s : State) :
    (reply x f s).allotments = s.allotments := rfl

theorem keepsExtents_execute {x : Port} {code : Byte} {act : List Byte → State → Option Answer}
    (hact : BlockKeepsExtents act) {s t : State} (h : execute x code act s = some t) :
    KeepsExtents s t := by
  have htake : ∀ rest, KeepsExtents s (takeCommand x rest s) :=
    fun rest => .of_same (allotments_takeCommand x rest s)
  unfold execute at h
  split at h
  · split at h
    · simp only at h
      split at h <;> cases h
      · rename_i ha
        exact ((htake _).trans (hact _ _ _ ha)).then_same (allotments_reply x _ _)
      · exact (htake _).then_same (allotments_reply x _ _)
    · cases h
  · cases h

theorem keepsExtents_runCommand {act : List Byte → State → Option Answer} (hact : BlockKeepsExtents act)
    (x : Port) (code : Byte) (s : State) : KeepsExtents s (runCommand x code act s) := by
  unfold runCommand
  cases h : execute x code act s with
  | none => exact .refl s
  | some t => exact (keepsExtents_execute hact h).finish

theorem keepsExtents_badKind (x : Port) (s : State) : KeepsExtents s (badKind x s) := by
  unfold badKind
  cases nextCommand x s with
  | none => exact .refl s
  | some cr =>
    simp only
    split
    · exact .refl s
    · exact KeepsExtents.finish
        (.of_same ((allotments_reply x _ _).trans (allotments_takeCommand x cr.2 s)))

theorem keepsExtents_bye (x : Port) (s : State) : KeepsExtents s (bye x s) := by
  unfold bye
  cases h : execute x 0x11 byeBlock s with
  | none => exact .refl s
  | some t =>
    have h1 := keepsExtents_execute byeBlock_changesNothing.keepsExtents h
    refine KeepsExtents.finish ?_
    split
    · exact h1.trans (keepsExtents_teardown x t)
    · exact h1

/-! ### Arrivals, bytes and timers (08 R133 to R141, 09 R160 to R163, 10 R168 to R173) -/

theorem keepsExtents_arriveHello (x : Port) (f : Frame) (s : State) :
    KeepsExtents s (arriveHello x f s) := by
  have refused : ∀ st, KeepsExtents s (place x (replyFrame f.seq st codeHello []) s) :=
    fun st => .of_same rfl
  unfold arriveHello
  split
  · unfold takeHello
    simp only
    split
    · iterate 3 (split; · exact refused _)
      exact (keepsExtents_teardownIfOpen x s).then_same
        ((allotments_modPort _ x _).trans (allotments_modSession _ x _))
    · exact refused _
  · exact .refl s

theorem keepsExtents_arriveCommand (x : Port) (f : Frame) (s : State) :
    KeepsExtents s (arriveCommand x f s) := by
  unfold arriveCommand
  split
  · exact keepsExtents_arriveHello x f s
  · split
    · exact .of_same (allotments_accept x f s)
    · exact .of_same (allotments_placeIfRoom _ _ _)

theorem keepsExtents_resolve (p : Port) (f : Frame) (good : Bool) (s : State) :
    KeepsExtents s (resolve p f good s) := by
  unfold resolve
  split
  · exact .of_same rfl
  · split
    · exact keepsExtents_arriveCommand p f s
    · split
      · exact .of_same (allotments_arriveAck p f s)
      · split <;> exact .of_same rfl

theorem keepsExtents_deliver (p : Port) (b : Byte) (s : State) : KeepsExtents s (deliver p b s) := by
  have hnote : (noteByteU p (exchange p s)).allotments = s.allotments := by
    cases p
    · rfl
    · exact allotments_exchangeS s
  have hrx : KeepsExtents s ((noteByteU p (exchange p s)).modPort p fun q =>
      { q with rx := (((noteByteU p (exchange p s)).port p).rx.take b).1 }) := .of_same hnote
  unfold deliver
  simp only
  split
  · exact hrx
  · exact hrx.then_same (allotments_modPort _ p _)
  · exact hrx.trans (keepsExtents_resolve p _ _ _)

theorem keepsExtents_expire (x : Port) (s : State) : KeepsExtents s (expire x s) := by
  unfold expire
  split
  · exact .of_same rfl
  · exact (keepsExtents_teardownIfOpen x s).then_same (allotments_modPort _ x _)

theorem keepsExtents_hear (p : Port) (b : Byte) (s : State) : KeepsExtents s (hear p b s) := by
  have h := (keepsExtents_deliver p b s).finish
  unfold hear
  simp only
  split
  · rcases expireOverdue_cases p (finish (deliver p b s)) with ⟨-, he⟩ | ⟨-, he⟩ <;> rw [he]
    · exact (h.trans (keepsExtents_expire p _)).finish
    · exact h
  · exact h

theorem keepsExtents_linkReset (s : State) : KeepsExtents s (linkReset s) := by
  have h1 : KeepsExtents s (s.modPort .u fun q => { q with rx := .hunt }) := .of_same rfl
  have h2 : KeepsExtents s
      (clearFifo .u (teardownIfOpen .u (s.modPort .u fun q => { q with rx := .hunt }))) :=
    (h1.trans (keepsExtents_teardownIfOpen .u _)).then_same (allotments_modPort _ .u _)
  exact h2.then_same rfl

theorem keepsExtents_timed {due : State → Option Nat} {act : State → State}
    (hact : ∀ u, KeepsExtents u (act u)) {s t : State} (h : timed due act s = .next t) :
    KeepsExtents s t := by
  rcases timed_cases due act s with ⟨n, -, -, hn⟩ | ⟨-, hn⟩ <;> rw [hn] at h <;> cases h
  · have h1 : KeepsExtents s (advanceTo n (endS s)) := .of_same (allotments_endS s)
    exact (h1.trans (hact _)).finish
  · exact .refl s

/-! ### The sample port (01 R9, R12) -/

theorem allotments_sampleArrival (c : ChannelId) (v : Word16) (s : State) :
    (sampleArrival c v s).allotments = s.allotments := by
  unfold sampleArrival
  cases s.binding c with
  | none => rfl
  | some r =>
    simp only
    cases hr : s.ring r with
    | none => rfl
    | some g =>
      have hevict := allotments_evictOverwritten r g s
      have hring : ((evictOverwritten r g s).ring r).map Ring.extent = some g.extent := by
        rw [map_extent_ring hevict, hr]
        rfl
      simp only
      split
      · exact (allotments_finish _).trans ((allotments_writeSample v hring).trans hevict)
      · rfl

theorem allotments_clockSample (s : State) (t : SpPeriod) : (clockSample s t).allotments = s.allotments := by
  unfold clockSample
  split
  · rfl
  · split
    · rfl
    · simp only
      split
      · rfl
      · exact allotments_sampleArrival _ _ _

/-! ### Every step -/

/-- A happening whose condition fails leaves the state (log 2). -/
theorem keepsExtents_ite {p : Prop} [Decidable p] {s t u : State} (hu : KeepsExtents s u)
    (h : (if p then Host.Outcome.next (finish u) else .next s) =
      Host.Outcome.next (φ := Fault) (ρ := Refusal) t) : KeepsExtents s t := by
  split at h <;> cases h
  · exact hu.finish
  · exact .refl s

theorem keepsExtents_runHappening {s t : State} (h : execSegmentEnd s = .next t ∨ execRunEnd s = .next t) :
    KeepsExtents s t := by
  unfold execSegmentEnd execRunEnd at h
  cases hf : inFlightRun s with
  | none => simp only [hf, or_self] at h; cases h; exact .refl s
  | some rb =>
    simp only [hf] at h
    rcases h with h | h
    · exact keepsExtents_ite (.of_same (allotments_segmentEnd _ _ s)) h
    · rw [← ite_not] at h
      exact keepsExtents_ite (.of_same (allotments_runEnd _ _ s)) h

theorem keepsExtents_exec {i : Instr} {s t : State} (h : exec i s = .next t) : KeepsExtents s t := by
  have run : ∀ {act x code}, BlockKeepsExtents act →
      Host.Outcome.next (φ := Fault) (ρ := Refusal) (runCommand x code act s) = .next t →
      KeepsExtents s t := fun hact h => by
    cases h
    exact keepsExtents_runCommand hact _ _ s
  cases i with
  | rstn baud lines =>
    cases h
    exact fun _ => KeepsExtents.of_same (s := State.afterReset baud lines (s.epoch + 1)) rfl
      (extentLaw_afterReset baud lines (s.epoch + 1))
  | sampleArrival periods => cases h; exact .of_same (allotments_foldl allotments_clockSample periods s)
  | segmentEnd => exact keepsExtents_runHappening (.inl h)
  | runEnd => exact keepsExtents_runHappening (.inr h)
  | frameResolution p last =>
    simp only [exec, execFrameResolution] at h
    split at h <;> cases h
    · exact keepsExtents_hear p last s
    · exact .refl s
  | frameLengthError p len => exact keepsExtents_ite (keepsExtents_deliver p len s) h
  | hello p last => exact keepsExtents_ite (keepsExtents_deliver p last s) h
  | badKind x => cases h; exact keepsExtents_badKind x s
  | bye x => cases h; exact keepsExtents_bye x s
  | status x => exact run (statusBlock_changesNothing x).keepsExtents h
  | ringCreate x => exact run (ringCreate_keepsExtents x) h
  | ringDelete x => exact run (ringDelete_keepsExtents x) h
  | ringFlush x => exact run (ringFlush_keepsExtents x) h
  | ringWrite x => exact run (ringWrite_keepsExtents x) h
  | ringRead x => exact run ringRead_changesNothing.keepsExtents h
  | ringQuery x => exact run ringQuery_changesNothing.keepsExtents h
  | setBegin x => exact run (setBegin_keepsExtents x) h
  | setData x => exact run (setData_keepsExtents x) h
  | setEnd x => exact run (setEnd_keepsExtents x) h
  | setAbort x => exact run (setAbort_keepsExtents x) h
  | setDelete x => exact run (setDelete_keepsExtents x) h
  | setQuery x => exact run setQuery_changesNothing.keepsExtents h
  | memQuery x => exact run memQuery_changesNothing.keepsExtents h
  | jobDefine x => exact run (jobDefine_keepsExtents x) h
  | jobArm x => exact run (jobArm_keepsExtents x) h
  | jobStart x => exact run (jobStart_keepsExtents x) h
  | jobCancel x => exact run (jobCancel_keepsExtents x) h
  | jobDelete x => exact run (jobDelete_keepsExtents x) h
  | jobQuery x => exact run jobQuery_changesNothing.keepsExtents h
  | jobWatch x => exact run (jobWatch_keepsExtents x) h
  | fetch x => exact run (fetchBlock_keepsExtents x) h
  | transmitArbiterChoice p =>
    cases p with
    | u => exact keepsExtents_ite (.refl s) h
    | s => cases h; exact KeepsExtents.finish (.of_same (allotments_startExchange s))
  | transmissionEnd p =>
    cases p with
    | u =>
      simp only [exec, execTransmissionEnd] at h
      split at h <;> cases h
      · exact KeepsExtents.finish (.of_same (allotments_noticeSent .u _ { s with txU := none }))
      · exact .refl s
    | s => exact keepsExtents_ite (.of_same (allotments_endS s)) h
  | noticeTimerExpiry x =>
    exact keepsExtents_timed (due := fun s => (s.session x).timer) (keepsExtents_expire x) h
  | framingError counted =>
    cases h
    exact KeepsExtents.finish (.of_same (allotments_breakPartial .u s))
  | interByteGap => exact keepsExtents_timed (act := dropPartial .u) (fun _ => .of_same rfl) h
  | linkReset => exact keepsExtents_timed keepsExtents_linkReset h
  | deselect =>
    have hdrop : (breakPartial .s (deselect (endS s))).allotments = s.allotments :=
      (allotments_breakPartial .s _).trans (allotments_endS s)
    exact keepsExtents_ite (.of_same hdrop) h
  | byteDelivered p b => cases h; exact keepsExtents_hear p b s

/-- Settles O53: the law sees only the free lists and the extents of rings and sets; first fit, the return of
an extent and reset keep it, and every other operation of a happening leaves them. -/
theorem stepKeepsTheExtentLaw : Obligations.StepKeepsTheExtentLaw := by
  intro s t hs h
  unfold step at h
  split at h
  · rename_i c rest _
    have hpop : KeepsExtents s { s with pending := rest } := .of_same rfl
    exact keepsExtents_exec h (hpop hs)
  · unfold idle at h
    split at h
    · exact keepsExtents_exec h hs
    · cases h
      exact KeepsExtents.of_same (s := s) rfl hs

end Sys2Proof.Machine
end

section
/-! SUPPORT. How a session's record evolves: the turns that a happening can give it, and the laws of sequence
numbers and of the notice timer that each turn keeps (08 R133 to R146, 09 R157 to R163). -/

namespace Sys2Proof.Machine

/-! ### Consecutive numbers -/

theorem chainTo_nil (n : Byte) : ChainTo n [] := fun _ h => absurd h (Nat.not_lt_zero _)

/-- The next number joins the end of a chain. -/
theorem ChainTo.push {n : Byte} {l : List Byte} (h : ChainTo n l) : ChainTo (n + 1) (l ++ [n]) := by
  intro i hi
  simp only [List.length_append, List.length_singleton] at hi ⊢
  rcases Nat.lt_or_ge i l.length with hl | hl
  · rw [List.getElem?_append_left hl, h i hl, Nat.sub_add_comm hl.le]
    congr 1
    rw [BitVec.ofNat_add]
    bv_omega
  · obtain rfl : i = l.length := by omega
    simp

/-- The end of a chain is a chain. -/
theorem ChainTo.suffix {n : Byte} {l m : List Byte} (h : ChainTo n l) (hm : m <:+ l) : ChainTo n m := by
  obtain ⟨pre, rfl⟩ := hm
  intro i hi
  have hlen : pre.length + i < (pre ++ m).length := by simp only [List.length_append]; omega
  have hi' := h _ hlen
  rw [List.getElem?_append_right (by omega), List.length_append, Nat.add_sub_cancel_left,
    Nat.add_sub_add_left] at hi'
  exact hi'

/-- The cache with one reply more is the end of the replies before and the new one (08 R146). -/
theorem cacheReply_suffix (f : Frame) (l : List Frame) : cacheReply f l <:+ l ++ [f] := by
  unfold cacheReply
  split
  · exact List.suffix_refl _
  · obtain ⟨pre, hpre⟩ := List.tail_suffix l
    exact ⟨pre, by rw [← List.append_assoc, hpre]⟩

/-- The notices younger than an acknowledged one are the end of those in flight (09 R160). -/
theorem younger_suffix {q : Byte} {l rest : List Notice} (h : younger q l = some rest) : rest <:+ l := by
  induction l with
  | nil => cases h
  | cons n l ih =>
    unfold younger at h
    split at h
    · cases h
      exact List.suffix_cons n _
    · exact (ih h).trans (List.suffix_cons n l)

/-! ### The turns of a record -/

/-- A session's record less what its objects and results make of it: the session controller's and the notice
unit's own items. -/
def Session.link (z : Session) : Session :=
  { z with results := [], heldOrder := [], load := none, pendingList := [] }

/-- One turn that a happening can give to a session's record. -/
inductive Session.Turn : Session → Session → Prop where
  /-- Only results, held order list, load context and pending list change. -/
  | same {z z' : Session} (h : z'.link = z.link) : Turn z z'
  /-- A command is accepted (08 R137, Table 8-2). -/
  | accept {z : Session} (c : Command) (ho : z.isOpen = true) (hc : c.seq = z.expected) :
      Turn z { z with queue := z.queue ++ [c], expected := z.expected + 1 }
  /-- The command at the head of the queue is answered (08 R145, R146). -/
  | answer {z : Session} {c : Command} {rest : List Command} {f : Frame} (hq : z.queue = c :: rest)
      (hf : f.seq = c.seq) : Turn z { z with queue := rest, cache := cacheReply f z.cache }
  /-- A pending entry is sent (09 R157). -/
  | send {z : Session} (f : Frame) (rest : List Entry) (ho : z.isOpen = true) (hf : f.seq = z.noticeSeq) :
      Turn z { z with
        pendingList := rest
        inFlight := z.inFlight ++ [{ frame := f, marked := false, sentAt := none }]
        noticeSeq := z.noticeSeq + 1 }
  /-- The oldest marked notice is sent again (09 R159). -/
  | resend {z : Session} : Turn z { z with inFlight := unmarkFirst z.inFlight }
  /-- Notices are acknowledged, marked or stamped, and the timer is set afresh (09 R158, R160, R162). -/
  | retime {z : Session} (l : List Notice) (retry : Nat)
      (hl : (l.map fun n => n.frame.seq) <:+ z.inFlight.map fun n => n.frame.seq)
      (hm : ∀ n ∈ l, n.marked = true → n ∈ z.inFlight ∨ n.sentAt = none) :
      Turn z { z with
        inFlight := l, retry := retry, timer := Session.timerLaw { z with inFlight := l } }
  /-- A CLOSED session opens (08 R134). -/
  | opened {z : Session} (timeout : Nat) (notify : Bool) (ho : z.isOpen = false) :
      Turn z { z with
        isOpen := true, expected := 1, timeout := timeout, resultsNotify := notify, noticeSeq := 0,
        retry := 0, timer := none }
  /-- A teardown (08 R149, R150). -/
  | closed {z : Session} : Turn z Session.closed

/-- A chain of turns. -/
def Session.Turns : Session → Session → Prop := Relation.ReflTransGen Session.Turn

theorem Session.Turn.turns {z z' : Session} (h : z.Turn z') : z.Turns z' := .single h

/-- What every turn keeps, a chain of turns keeps. -/
theorem Session.Turns.keeps {P : Session → Prop} (h : ∀ {z z' : Session}, z.Turn z' → P z → P z')
    {z z' : Session} (hc : z.Turns z') (hz : P z) : P z' := by
  induction hc with
  | refl => exact hz
  | tail _ hc ih => exact h hc ih

/-! ### What each turn keeps -/

/-- What the law of sequence numbers asks of a record (08 R142). -/
def Session.SequenceSound (z : Session) : Prop :=
  ChainTo z.expected (z.cache.map Frame.seq ++ z.queue.map Command.seq) ∧
    (z.isOpen = false → z.cache = [] ∧ z.queue = [])

/-- What the law of notice sequence numbers asks of a record (09 R157). -/
def Session.NoticesSound (z : Session) : Prop :=
  ChainTo z.noticeSeq (z.inFlight.map fun n => n.frame.seq) ∧ (z.isOpen = false → z.inFlight = [])

/-- What the law of the notice timer asks of a record (09 R158, R162). -/
def Session.TimerSound (z : Session) : Prop :=
  z.timer = z.timerLaw ∧ (∀ n ∈ z.inFlight, n.marked = true → n.sentAt = none) ∧
    (z.isOpen = false → z.inFlight = [])

/-- A CLOSED session has no command, reply or notice in flight (08 R131). -/
def Session.Still (z : Session) : Prop :=
  z.isOpen = false → z.queue = [] ∧ z.cache = [] ∧ z.inFlight = []

theorem unmarkFirst_seqs (l : List Notice) :
    ((unmarkFirst l).map fun n => n.frame.seq) = l.map fun n => n.frame.seq := by
  induction l with
  | nil => rfl
  | cons n rest ih => unfold unmarkFirst; split <;> simp [ih]

/-- Unmarking takes a notice's sent-at, and leaves every other notice (09 R159). -/
theorem mem_unmarkFirst {l : List Notice} {n : Notice} (h : n ∈ unmarkFirst l) :
    n ∈ l ∨ n.marked = false := by
  induction l with
  | nil => exact .inl h
  | cons m rest ih =>
    unfold unmarkFirst at h
    split at h
    · rcases List.mem_cons.mp h with rfl | h
      · exact .inr rfl
      · exact .inl (List.mem_cons_of_mem m h)
    · rcases List.mem_cons.mp h with rfl | h
      · exact .inl List.mem_cons_self
      · exact (ih h).imp_left (List.mem_cons_of_mem m)

theorem Session.SequenceSound.turn {z z' : Session} (ht : z.Turn z') (h : z.SequenceSound) :
    z'.SequenceSound := by
  obtain ⟨hchain, hclosed⟩ := h
  cases ht with
  | same e =>
    have h : z.link.SequenceSound := ⟨hchain, hclosed⟩
    rw [← e] at h
    exact h
  | accept c ho hc =>
    refine ⟨?_, fun hn => absurd (ho.symm.trans hn) nofun⟩
    simpa [hc] using hchain.push
  | @answer c rest f hq hf =>
    refine ⟨hchain.suffix ?_, fun hn => absurd (hq.symm.trans (hclosed hn).2) nofun⟩
    obtain ⟨pre, hpre⟩ := cacheReply_suffix f z.cache
    refine ⟨pre.map Frame.seq, ?_⟩
    rw [← List.append_assoc, ← List.map_append, hpre, hq]
    simp [hf]
  | send f rest ho hs => exact ⟨hchain, hclosed⟩
  | resend => exact ⟨hchain, hclosed⟩
  | retime l retry hl hm => exact ⟨hchain, hclosed⟩
  | opened timeout notify ho =>
    obtain ⟨hcache, hqueue⟩ := hclosed ho
    refine ⟨?_, nofun⟩
    simpa [hcache, hqueue] using chainTo_nil 1
  | closed => exact ⟨chainTo_nil 0, fun _ => ⟨rfl, rfl⟩⟩

theorem Session.NoticesSound.turn {z z' : Session} (ht : z.Turn z') (h : z.NoticesSound) :
    z'.NoticesSound := by
  obtain ⟨hchain, hclosed⟩ := h
  cases ht with
  | same e =>
    have h : z.link.NoticesSound := ⟨hchain, hclosed⟩
    rw [← e] at h
    exact h
  | accept c ho hc => exact ⟨hchain, hclosed⟩
  | answer hq hf => exact ⟨hchain, hclosed⟩
  | send n rest ho hs =>
    refine ⟨?_, fun hn => absurd (ho.symm.trans hn) nofun⟩
    simpa [hs] using hchain.push
  | resend =>
    refine ⟨?_, fun hn => ?_⟩
    · simpa only [unmarkFirst_seqs] using hchain
    · simp [hclosed hn, unmarkFirst]
  | retime l retry hl hm =>
    refine ⟨hchain.suffix hl, fun hn => ?_⟩
    rw [hclosed hn] at hl
    simpa using hl
  | opened timeout notify ho =>
    refine ⟨?_, nofun⟩
    simpa [hclosed ho] using chainTo_nil 0
  | closed => exact ⟨chainTo_nil 0, fun _ => rfl⟩

theorem Session.Still.turn {z z' : Session} (ht : z.Turn z') (h : z.Still) : z'.Still := by
  cases ht with
  | same e =>
    have h : z.link.Still := h
    rw [← e] at h
    exact h
  | accept c ho hc => exact fun hn => absurd (ho.symm.trans hn) nofun
  | answer hq hf => exact fun hn => absurd (hq.symm.trans (h hn).1) nofun
  | send n rest ho hs => exact fun hn => absurd (ho.symm.trans hn) nofun
  | resend =>
    intro hn
    obtain ⟨hqueue, hcache, hflight⟩ := h hn
    exact ⟨hqueue, hcache, by simp [hflight, unmarkFirst]⟩
  | retime l retry hl hm =>
    intro hn
    obtain ⟨hqueue, hcache, hflight⟩ := h hn
    rw [hflight] at hl
    exact ⟨hqueue, hcache, by simpa using hl⟩
  | opened timeout notify ho => exact nofun
  | closed => exact fun _ => ⟨rfl, rfl, rfl⟩

theorem Session.TimerSound.turn {z z' : Session} (ht : z.Turn z') (h : z.TimerSound) :
    z'.TimerSound := by
  obtain ⟨htimer, hmarked, hclosed⟩ := h
  cases ht with
  | same e =>
    have h : z.link.TimerSound := ⟨htimer, hmarked, hclosed⟩
    rw [← e] at h
    exact h
  | accept c ho hc => exact ⟨htimer, hmarked, hclosed⟩
  | answer hq hf => exact ⟨htimer, hmarked, hclosed⟩
  | send f rest ho hs =>
    refine ⟨htimer.trans ?_, fun n hn hm => ?_, fun hn => absurd (ho.symm.trans hn) nofun⟩
    · simp only [Session.timerLaw]
      cases z.inFlight <;> rfl
    · rcases List.mem_append.mp hn with hn | hn
      · exact hmarked n hn hm
      · rw [List.mem_singleton.mp hn]
  | resend =>
    refine ⟨htimer.trans ?_, fun n hn hm => ?_, fun hn => ?_⟩
    · simp only [Session.timerLaw]
      cases hl : z.inFlight with
      | nil => rfl
      | cons n rest =>
        by_cases hn : n.marked = true
        · simp [unmarkFirst, hn, hmarked n (by simp [hl]) hn]
        · simp [unmarkFirst, hn]
    · rcases mem_unmarkFirst hn with hn | hn
      · exact hmarked n hn hm
      · exact absurd (hm.symm.trans hn) nofun
    · simp [hclosed hn, unmarkFirst]
  | retime l retry hl hm =>
    refine ⟨rfl, fun n hn hmark => (hm n hn hmark).elim (hmarked n · hmark) id, fun hn => ?_⟩
    rw [hclosed hn] at hl
    simpa using hl
  | opened timeout notify ho =>
    refine ⟨?_, hmarked, nofun⟩
    simp [Session.timerLaw, hclosed ho]
  | closed => exact ⟨rfl, nofun, fun _ => rfl⟩

end Sys2Proof.Machine
end

section
/-! SUPPORT. What a session owns and waits for, and the work of the part's units: it leaves every session's link
and gives nothing to a session that has nothing (08 R131). -/

namespace Sys2Proof.Machine

/-! ### A session that has nothing -/

/-- A session owns no job, ring or set, and has no result, held job, load context or pending entry. -/
structure Bare (x : Port) (s : State) : Prop where
  jobs : ∀ j b, s.job j = some b → b.owner ≠ x
  rings : ∀ r g, s.ring r = some g → g.owner ≠ some x
  sets : ∀ c v, s.coef c = some v → v.owner ≠ some x
  results : (s.session x).results = []
  heldOrder : (s.session x).heldOrder = []
  load : (s.session x).load = none
  pendingList : (s.session x).pendingList = []

/-- The law of CLOSED sessions: no command, reply or notice, and nothing else either (08 R131). -/
theorem closedLaw_iff (s : State) : ClosedLaw s ↔
    (∀ x, (s.session x).Still) ∧ ∀ x, (s.session x).isOpen = false → Bare x s := by
  constructor
  · intro h
    refine ⟨fun x hx => ?_, fun x hx => ?_⟩ <;>
      obtain ⟨hjobs, hrings, hsets, hqueue, hcache, hresults, hheld, hload, hpending, hflight⟩ := h x hx
    · exact ⟨hqueue, hcache, hflight⟩
    · exact ⟨hjobs, hrings, hsets, hresults, hheld, hload, hpending⟩
  · rintro ⟨hstill, hbare⟩ x hx
    obtain ⟨hqueue, hcache, hflight⟩ := hstill x hx
    obtain ⟨hjobs, hrings, hsets, hresults, hheld, hload, hpending⟩ := hbare x hx
    exact ⟨hjobs, hrings, hsets, hqueue, hcache, hresults, hheld, hload, hpending, hflight⟩

/-! ### Work -/

/-- Work of the units: no session's link changes, and the sessions of `P` that have nothing are given nothing. -/
structure Work (P : Port → Prop) (s t : State) : Prop where
  link : ∀ x, (t.session x).link = (s.session x).link
  bare : ∀ x, P x → Bare x s → Bare x t

section
variable {P : Port → Prop}

theorem Work.refl (s : State) : Work P s s := ⟨fun _ => rfl, fun _ _ h => h⟩

theorem Work.trans {s t u : State} (h : Work P s t) (h' : Work P t u) : Work P s u :=
  ⟨fun x => (h'.link x).trans (h.link x), fun x hx hb => h'.bare x hx (h.bare x hx hb)⟩

theorem Work.foldl {α : Type} {f : State → α → State} (h : ∀ s a, Work P s (f s a)) (l : List α)
    (s : State) : Work P s (l.foldl f s) := by
  induction l generalizing s with
  | nil => exact .refl s
  | cons a l ih => exact (h s a).trans (ih _)

/-- Jobs, rings, sets and sessions are the same. -/
theorem Work.of_records {s t : State} (hj : t.jobs = s.jobs) (hr : t.rings = s.rings)
    (hc : t.sets = s.sets) (hs : t.sessions = s.sessions) : Work P s t := by
  have job : ∀ j, t.job j = s.job j := fun j => congrArg (Table.look · j) hj
  have ring : ∀ r, t.ring r = s.ring r := fun r => congrArg (Table.look · r) hr
  have coef : ∀ c, t.coef c = s.coef c := fun c => congrArg (Table.look · c) hc
  have session : ∀ x, t.session x = s.session x := fun x => congrArg (Pair.look · x) hs
  refine ⟨fun x => by rw [session], fun x _ hb => ?_⟩
  obtain ⟨h1, h2, h3, h4, h5, h6, h7⟩ := hb
  constructor <;> simpa only [job, ring, coef, session]

/-- One job's record changes, and stays its session's. -/
theorem Work.putJob {s : State} {j : JobId} {b c : Job} (hb : s.job j = some b)
    (ho : c.owner = b.owner) : Work P s (s.putJob j (some c)) := by
  refine ⟨fun _ => rfl, fun x _ h => { h with jobs := fun k d hd => ?_ }⟩
  rw [State.job_putJob] at hd
  split at hd
  · cases hd
    rw [ho]
    exact h.jobs j b hb
  · exact h.jobs k d hd

/-- One job's record becomes EMPTY. -/
theorem Work.putEmpty (s : State) (j : JobId) : Work P s (s.putJob j none) := by
  refine ⟨fun _ => rfl, fun x _ h => { h with jobs := fun k d hd => ?_ }⟩
  rw [State.job_putJob] at hd
  split at hd
  · cases hd
  · exact h.jobs k d hd

/-- Rings change that stay their sessions', or have none, or are new and of a session outside `P`. -/
theorem Work.of_rings {s t : State} (e : RingsOnly s t)
    (h : ∀ x r g, P x → t.ring r = some g → g.owner = some x →
      ∃ g', s.ring r = some g' ∧ g'.owner = some x) :
    Work P s t := by
  refine ⟨fun x => by rw [e.session], fun x hx hb => ?_⟩
  obtain ⟨h1, h2, h3, h4, h5, h6, h7⟩ := hb
  refine ⟨by simpa only [e.job], fun r g hg ho => ?_, by simpa only [e.coef], ?_, ?_, ?_, ?_⟩
  · obtain ⟨g', hg', ho'⟩ := h x r g hx hg ho
    exact h2 r g' hg' ho'
  all_goals rwa [e.session]

/-- Sets change that stay their sessions', or have none, or are new and of a session outside `P`. -/
theorem Work.of_sets {s t : State} (e : SetsOnly s t)
    (h : ∀ x c v, P x → t.coef c = some v → v.owner = some x →
      ∃ v', s.coef c = some v' ∧ v'.owner = some x) :
    Work P s t := by
  have job : ∀ j, t.job j = s.job j := fun j => congrArg (Table.look · j) e.jobs
  refine ⟨fun x => by rw [e.session], fun x hx hb => ?_⟩
  obtain ⟨h1, h2, h3, h4, h5, h6, h7⟩ := hb
  refine ⟨by simpa only [job], by simpa only [e.ring], fun c v hv ho => ?_, ?_, ?_, ?_, ?_⟩
  · obtain ⟨v', hv', ho'⟩ := h x c v hx hv ho
    exact h3 c v' hv' ho'
  all_goals rwa [e.session]

/-- A session that owns a job is not one that has nothing. -/
theorem Work.of_owner {s t : State} {j : JobId} {b : Job} (hb : s.job j = some b)
    (h : Work (· ≠ b.owner) s t) : Work P s t :=
  ⟨h.link, fun x _ hx => h.bare x (fun e => hx.jobs j b hb e.symm) hx⟩

end

/-- A session's own record changes, beside its link. -/
theorem Work.modSession {s : State} {x : Port} {f : Session → Session}
    (h : (f (s.session x)).link = (s.session x).link) : Work (· ≠ x) s (s.modSession x f) := by
  refine ⟨fun y => ?_, fun y hy hb => ?_⟩
  · rw [State.session_modSession]
    split
    · rename_i hy
      rw [hy, h]
    · rfl
  · have other : (s.modSession x f).session y = s.session y := by
      rw [State.session_modSession, if_neg hy]
    obtain ⟨h1, h2, h3, h4, h5, h6, h7⟩ := hb
    exact ⟨h1, h2, h3, by rwa [other], by rwa [other], by rwa [other], by rwa [other]⟩

/-- A session defines a job. -/
theorem Work.putOwn {s : State} {j : JobId} (d : Job) : Work (· ≠ d.owner) s (s.putJob j (some d)) := by
  refine ⟨fun _ => rfl, fun x hx h => { h with jobs := fun k c hc => ?_ }⟩
  rw [State.job_putJob] at hc
  split at hc
  · cases hc
    exact fun e => hx e.symm
  · exact h.jobs k c hc

/-! ### The result unit (04) -/

theorem work_moveHeld (x : Port) (j : JobId) (rest : List JobId) (s : State) :
    Work (· ≠ x) s (moveHeld x j rest s) := by
  unfold moveHeld
  cases hj : s.job j with
  | none => exact .modSession rfl
  | some b =>
    cases hs : b.state with
    | held r =>
      simp only [hs]
      have h1 : Work (· ≠ x) s
          (s.modSession x fun z => { z with heldOrder := rest, results := z.results ++ [r] }) :=
        .modSession rfl
      exact h1.trans (.putJob (b := b) hj rfl)
    | _ => simp only [hs]; exact .modSession rfl

theorem work_heldMove (x : Port) (s : State) : Work (· ≠ x) s (heldMove x s) := by
  unfold heldMove
  generalize (s.session x).heldOrder = l
  induction l generalizing s with
  | nil => exact .refl s
  | cons j rest ih =>
    unfold heldMoves
    split
    · exact (work_moveHeld x j rest s).trans (ih _)
    · exact .refl s

theorem work_resultsCheck (x : Port) (before : List Record) (s : State) :
    Work (· ≠ x) s (resultsCheck x before s) := by
  rw [resultsCheck_eq]
  split
  · exact .modSession rfl
  · split
    · exact .modSession rfl
    · exact .refl s

/-- Records leave a result queue, and held ones may move in (04 R78, R79, R81). -/
theorem work_removeResults (x : Port) (l before : List Record) (p : Prop) [Decidable p] (s : State) :
    Work (· ≠ x) s (resultsCheck x before
      (if p then heldMove x (s.modSession x fun z => { z with results := l })
        else s.modSession x fun z => { z with results := l })) := by
  have h1 : Work (· ≠ x) s (s.modSession x fun z => { z with results := l }) := .modSession rfl
  refine .trans ?_ (work_resultsCheck x _ _)
  split
  · exact h1.trans (work_heldMove x _)
  · exact h1

theorem work_purge (x : Port) (j : JobId) (s : State) : Work (· ≠ x) s (purge x j s) :=
  work_removeResults x _ _ _ s

theorem work_removeOldest (x : Port) (k : Nat) (s : State) : Work (· ≠ x) s (removeOldest x k s) :=
  work_removeResults x _ _ _ s

theorem work_postResult {j : JobId} {b : Job} (c : Job) (r : Record) {s : State} (hb : s.job j = some b)
    (ho : c.owner = b.owner) : Work (· ≠ b.owner) s (postResult j c r s) := by
  rw [← ho]
  have put : ∀ st, Work (· ≠ c.owner) s (s.putJob j (some { c with state := st })) := fun st => .putJob hb ho
  by_cases h : (s.session c.owner).results.length < 32
  · rw [postResult_queues h]
    exact (put _).trans (.modSession rfl)
  · rw [postResult_holds (Nat.le_of_not_lt h)]
    exact (put _).trans (.modSession rfl)

section
variable {P : Port → Prop}

/-! ### The run scheduler (03) -/

theorem work_abandon (j : JobId) (b : Job) (s : State) : Work P s (abandon j b s) := by
  unfold abandon
  cases b.state <;> exact .of_records rfl rfl rfl rfl

theorem work_startStep (s : State) : Work P s (startStep s) := by
  unfold startStep
  cases s.psu with
  | some run => exact .refl s
  | none =>
    cases nextToRun s with
    | none => exact .refl s
    | some t =>
      obtain ⟨c, j⟩ := t
      simp only [startJob]
      cases hj : s.job j with
      | none => exact .refl s
      | some b =>
        simp only
        cases runOf j b with
        | none => exact .refl s
        | some run =>
          have h1 : Work P s (s.putJob j (some { b with state := .running })) := .putJob hj rfl
          exact h1.trans (.of_records rfl rfl rfl rfl)

theorem work_park {b : Job} {run : Run} {s : State} (hb : s.job run.job = some b) :
    Work P s (park b run s) := by
  have h1 : Work P s (s.putJob run.job (some (b.parked run))) := .putJob hb rfl
  exact h1.trans (.of_records rfl rfl rfl rfl)

theorem work_segmentEnd {b : Job} {run : Run} {s : State} (hb : s.job run.job = some b) :
    Work P s (segmentEnd b run s) := by
  have hb' : s.job (addProducts s b Config.segment run).job = some b := by
    rw [(addProducts_next s b Config.segment run).2, hb]
  unfold segmentEnd
  simp only
  split
  · exact work_park hb'
  · exact .of_records rfl rfl rfl rfl

theorem work_runEnd {b : Job} {run : Run} {s : State} (hb : s.job run.job = some b) :
    Work P s (runEnd b run s) := by
  have h1 : Work (· ≠ b.owner) s { s with psu := none } := .of_records rfl rfl rfl rfl
  have h2 : ∀ l c r, c.owner = b.owner → Work (· ≠ b.owner) s (postResult run.job c r
      ({ s with psu := none }.modSession b.owner fun z => { z with pendingList := l })) := fun l c r ho =>
    (h1.trans (.modSession rfl)).trans (work_postResult (b := b) c r hb ho)
  exact .of_owner hb (h2 _ _ _ rfl)

/-! ### Evictions, triggers, countdowns and samples (01 R11 to R16, 02 R34 to R39) -/

theorem work_evict (r : RingId) (s : State) (j : JobId) : Work P s (evict r s j) := by
  unfold evict
  cases hj : s.job j with
  | none => exact .refl s
  | some b =>
    refine .of_owner hj (((work_abandon j b s).trans ?_).trans (.modSession rfl))
    exact .putJob (b := b) ((job_abandon j j b s).trans hj) rfl

theorem work_evictAll (r : RingId) (js : List JobId) (s : State) : Work P s (evictAll r js s) :=
  .foldl (work_evict r) js s

theorem work_evictOverwritten (r : RingId) (g : Ring) (s : State) : Work P s (evictOverwritten r g s) := by
  unfold evictOverwritten
  split
  · exact work_evictAll _ _ _
  · exact .refl s

theorem work_fire {j : JobId} {b c : Job} (head : Nat) (extra : Bool) {s : State} (hb : s.job j = some b)
    (ho : c.owner = b.owner) : Work P s (fire j c head extra s) := by
  have h1 : Work P s (s.putJob j (some { c with
      state := .ready, windowStart := head - c.par.length, triggerHead := head, extra := extra,
      preempted := false })) := .putJob hb ho
  exact h1.trans (.of_records rfl rfl rfl rfl)

theorem work_trigger {j : JobId} {b : Job} (countdown head fill : Nat) {s : State} (hb : s.job j = some b) :
    Work P s (trigger j { b with countdown := countdown } head fill s) := by
  unfold trigger
  split
  · exact .putJob hb rfl
  · cases hst : b.state with
    | armed => exact work_fire head false hb rfl
    | defined => exact .putJob hb rfl
    | ready | running | parked _ | held _ =>
      have h1 : Work (· ≠ b.owner) s (s.putJob j (some { b with
        countdown := countdown, missed := bump Config.counterLimit b.missed })) := .putJob hb rfl
      rw [hst] at h1
      exact .of_owner hb (h1.trans (.modSession rfl))

theorem work_countdownJob (r : RingId) (head fill : Nat) (s : State) (j : JobId) :
    Work P s (countdownJob r head fill s j) := by
  unfold countdownJob
  cases hj : s.job j with
  | none => exact .refl s
  | some b =>
    simp only
    split
    · split
      · exact work_trigger _ head fill hj
      · exact .putJob hj rfl
    · exact .refl s

theorem work_writeSample {r : RingId} {g : Ring} (v : Word16) {s : State}
    (hr : (s.ring r).map Ring.owner = some g.owner) : Work P s (writeSample r g v s) := by
  have h1 : Work P s { s with sampleMem := s.sampleMem.write (g.base + g.head % g.capacity) v } :=
    .of_records rfl rfl rfl rfl
  refine (h1.trans (.of_rings (putRing_only _ r (some g.taken)) fun x k h _ hk ho => ?_)).trans
    (.foldl (work_countdownJob r g.taken.head g.taken.fill) allJobs _)
  rw [State.ring_putRing] at hk
  split at hk
  · rename_i hkr
    cases hk
    obtain ⟨g', hg', hown⟩ := Option.map_eq_some_iff.mp hr
    exact ⟨g', hkr ▸ hg', hown.trans ho⟩
  · exact ⟨h, hk, ho⟩

theorem work_writeSamples (r : RingId) (ws : List Word16) (n : Nat) (s : State) :
    Work P s (writeSamples r ws n s).2 := by
  induction ws generalizing n s with
  | nil => exact .refl s
  | cons v ws ih =>
    unfold writeSamples
    cases hr : s.ring r with
    | none => exact .refl s
    | some g =>
      simp only
      split
      · exact (work_writeSample v (congrArg (Option.map Ring.owner) hr)).trans (ih _ _)
      · exact .refl s

/-! ### Rings and sets (01, 06) -/

/-- One ring's record changes, and the ring keeps its owner. -/
theorem Work.putRing {s : State} {r : RingId} {g h : Ring} (hr : s.ring r = some g)
    (ho : h.owner = g.owner ∨ h.owner = none) : Work P s (s.putRing r (some h)) := by
  refine .of_rings (putRing_only s r _) fun x k d _ hk hd => ?_
  rw [State.ring_putRing] at hk
  split at hk
  · rename_i hkr
    cases hk
    refine ⟨g, hkr ▸ hr, ?_⟩
    rcases ho with ho | ho <;> rw [ho] at hd
    · exact hd
    · cases hd
  · exact ⟨d, hk, hd⟩

/-- One set's record changes, and the set keeps its owner. -/
theorem Work.putCoef {s : State} {c : SetId} {v w : CoefSet} (hc : s.coef c = some v)
    (ho : w.owner = v.owner ∨ w.owner = none) : Work P s (s.putCoef c (some w)) := by
  refine .of_sets (putCoef_only s c _) fun x k d _ hk hd => ?_
  rw [State.coef_putCoef] at hk
  split at hk
  · rename_i hkc
    cases hk
    refine ⟨v, hkc ▸ hc, ?_⟩
    rcases ho with ho | ho <;> rw [ho] at hd
    · exact hd
    · cases hd
  · exact ⟨d, hk, hd⟩

theorem work_freeRing (r : RingId) (s : State) : Work P s (freeRing r s) := by
  refine .of_rings (freeRing_only r s) fun x k g _ hk ho => ?_
  rw [ring_freeRing] at hk
  split at hk
  · cases hk
  · exact ⟨g, hk, ho⟩

theorem work_freeSet (c : SetId) (s : State) : Work P s (freeSet c s) := by
  refine .of_sets (freeSet_only c s) fun x k v _ hk ho => ?_
  rw [coef_freeSet] at hk
  split at hk
  · cases hk
  · exact ⟨v, hk, ho⟩

theorem work_refRing (r : RingId) (s : State) : Work P s (refRing r s) := by
  cases hr : s.ring r with
  | none => simp only [refRing, hr]; exact .refl s
  | some g => rw [refRing_eq hr]; exact .putRing hr (.inl rfl)

theorem work_unrefRing (r : RingId) (s : State) : Work P s (unrefRing r s) := by
  unfold unrefRing
  cases hr : s.ring r with
  | none => exact .refl s
  | some g =>
    have h1 : Work P s (s.putRing r (some { g with refs := g.refs - 1 })) := .putRing hr (.inl rfl)
    simp only
    split
    · exact h1.trans (work_freeRing r _)
    · exact h1

theorem work_refSet (c : SetId) (s : State) : Work P s (refSet c s) := by
  cases hc : s.coef c with
  | none => simp only [refSet, hc]; exact .refl s
  | some v => rw [refSet_eq hc]; exact .putCoef hc (.inl rfl)

theorem work_unrefSet (c : SetId) (s : State) : Work P s (unrefSet c s) := by
  unfold unrefSet
  cases hc : s.coef c with
  | none => exact .refl s
  | some v =>
    have h1 : Work P s (s.putCoef c (some { v with refs := v.refs - 1 })) := .putCoef hc (.inl rfl)
    simp only
    split
    · exact h1.trans (work_freeSet c _)
    · exact h1

/-! ### Deletion (02 R45) -/

theorem work_endFire {j : JobId} {b : Job} {s : State} : Work (· ≠ b.owner) s (endFire j b s) := by
  unfold endFire
  cases b.state with
  | held r => exact .modSession rfl
  | _ => exact work_abandon j b s

theorem work_deleteJob (j : JobId) (s : State) : Work P s (deleteJob j s) := by
  unfold deleteJob
  cases hj : s.job j with
  | none => exact .refl s
  | some b =>
    have h1 : Work (· ≠ b.owner) s (purge b.owner j (endFire j b s)) :=
      work_endFire.trans (work_purge b.owner j _)
    exact .of_owner hj ((((h1.trans (.modSession rfl)).trans (work_unrefRing _ _)).trans
      (work_unrefSet _ _)).trans (.putEmpty _ j))

theorem work_deleteOwned (x : Port) (s : State) (j : JobId) : Work P s (deleteOwned x s j) := by
  unfold deleteOwned
  cases s.job j with
  | none => exact .refl s
  | some b =>
    simp only
    split
    · exact work_deleteJob j s
    · exact .refl s

theorem work_leaveRing (x : Port) (s : State) (r : RingId) : Work P s (leaveRing x s r) := by
  unfold leaveRing
  cases hr : s.ring r with
  | none => exact .refl s
  | some g =>
    simp only
    split
    · split
      · exact work_freeRing r s
      · exact .putRing hr (.inr rfl)
    · exact .refl s

theorem work_leaveSet (x : Port) (s : State) (c : SetId) : Work P s (leaveSet x s c) := by
  unfold leaveSet
  cases hv : s.coef c with
  | none => exact .refl s
  | some v =>
    cases hp : v.phase with
    | loading => simp only [hp]; exact .refl s
    | ready o crc =>
      simp only [hp]
      split
      · split
        · exact work_freeSet c s
        · exact .putCoef hv (.inr rfl)
      · exact .refl s

end

theorem work_putLoad (x : Port) (l : Option Load) (s : State) : Work (· ≠ x) s (putLoad x l s) :=
  .modSession rfl

theorem work_closeLoad (x : Port) (s : State) : Work (· ≠ x) s (closeLoad x s) := by
  unfold closeLoad
  cases (s.session x).load with
  | none => exact .refl s
  | some l => exact (work_freeSet l.set s).trans (.modSession rfl)

/-! ### The blocks of the commands -/

/-- A block whose answer is work of its session. -/
def BlockWorks (x : Port) (act : List Byte → State → Option Answer) : Prop :=
  ∀ args s a, act args s = some a → Work (· ≠ x) s a.state

theorem ChangesNothing.works {act : List Byte → State → Option Answer} (h : ChangesNothing act) (x : Port) :
    BlockWorks x act := fun args s a ha => by
  rw [h args s a ha]
  exact .refl s

/-! A refusal leaves the state, so only what stands behind a block's last check matters. -/

/-- A session's own new ring. -/
theorem Work.createRing {s : State} {r : RingId} (x : Port) (src : Source) (base capacity : Nat) :
    Work (· ≠ x) s (s.putRing r (some (Ring.created x src base capacity))) := by
  refine .of_rings (putRing_only s r _) fun y k g hy hk ho => ?_
  rw [State.ring_putRing] at hk
  split at hk
  · cases hk
    cases ho
    exact absurd rfl hy
  · exact ⟨g, hk, ho⟩

theorem work_bindSource (x : Port) (src : Source) (r : RingId) (s : State) :
    Work (· ≠ x) s (bindSource src r s) := by
  cases src <;> exact .of_records rfl rfl rfl rfl

theorem ringCreate_works (x : Port) : BlockWorks x (ringCreate x) := by
  intro args s a h
  unfold ringCreate at h
  split at h <;> cases h
  simp only
  iterate 6 (split; · exact .refl s)
  have h1 : ∀ free, Work (· ≠ x) s { s with sampleFree := free } := fun _ => .of_records rfl rfl rfl rfl
  exact ((h1 _).trans (.createRing x _ _ _)).trans (work_bindSource x _ _ _)

theorem ringDelete_works (x : Port) : BlockWorks x (ringDelete x) := by
  intro args s a h
  unfold ringDelete at h
  split at h <;> cases h
  simp only
  iterate 4 (split; · exact .refl s)
  exact work_freeRing _ s

theorem ringFlush_works (x : Port) : BlockWorks x (ringFlush x) := by
  intro args s a h
  unfold ringFlush at h
  split at h <;> cases h
  simp only
  iterate 3 (split; · exact .refl s)
  next r _ _ g hr _ =>
  have h1 := work_evictAll (P := (· ≠ x)) r (pinners r (fun _ => true) s) s
  refine h1.trans (.putRing (g := g) ?_ (.inl rfl))
  exact (congrArg (Table.look · r) (evictAll_frame r _ s).1).trans hr

theorem ringWrite_works (x : Port) : BlockWorks x (ringWrite x) := by
  intro args s a h
  unfold ringWrite at h
  split at h
  · split at h
    · cases h
    · split at h <;> cases h
      simp only
      iterate 5 (split; · exact .refl s)
      exact work_writeSamples _ _ 0 s
  · cases h

/-- A session's own set that begins to load. -/
theorem Work.createSet {s : State} {c : SetId} {x : Port} {v : CoefSet} (ho : v.owner = some x) :
    Work (· ≠ x) s (s.putCoef c (some v)) := by
  refine .of_sets (putCoef_only s c _) fun y k w hy hk hw => ?_
  rw [State.coef_putCoef] at hk
  split at hk
  · cases hk
    rw [ho] at hw
    cases hw
    exact absurd rfl hy
  · exact ⟨w, hk, hw⟩

theorem setBegin_works (x : Port) : BlockWorks x (setBegin x) := by
  intro args s a h
  unfold setBegin at h
  split at h <;> cases h
  simp only
  iterate 5 (split; · exact .refl s)
  have h1 : ∀ free, Work (· ≠ x) s { s with coefFree := free } := fun _ => .of_records rfl rfl rfl rfl
  exact ((h1 _).trans (.createSet rfl)).trans (work_putLoad x _ _)

theorem setData_works (x : Port) : BlockWorks x (setData x) := by
  intro args s a h
  unfold setData at h
  split at h
  · split at h
    · cases h
    · split at h <;> cases h
      simp only
      iterate 4 (split; · exact .refl s)
      split
      · have h1 : ∀ m, Work (· ≠ x) s { s with coefMem := m } := fun _ => .of_records rfl rfl rfl rfl
        exact (h1 _).trans (work_putLoad x _ _)
      · split <;> exact .refl s
  · cases h

theorem setEnd_works (x : Port) : BlockWorks x (setEnd x) := by
  intro args s a h
  unfold setEnd at h
  split at h <;> cases h
  simp only
  iterate 3 (split; · exact .refl s)
  next l _ _ v hv _ =>
  split
  · have h1 : ∀ crc, Work (· ≠ x) s (s.putCoef l.set (some { v with refs := 0, phase := .ready false crc })) :=
      fun crc => .putCoef hv (.inl rfl)
    exact (h1 _).trans (work_putLoad x _ _)
  · exact work_putLoad x _ s

theorem setAbort_works (x : Port) : BlockWorks x (setAbort x) := by
  intro args s a h
  unfold setAbort at h
  split at h <;> cases h
  split
  · exact .refl s
  · exact (work_freeSet _ s).trans (work_putLoad x _ _)

theorem setDelete_works (x : Port) : BlockWorks x (setDelete x) := by
  intro args s a h
  unfold setDelete at h
  split at h <;> cases h
  simp only
  iterate 5 (split; · exact .refl s)
  exact work_freeSet _ s

theorem work_defineNew (x : Port) (j : JobId) (r : RingId) (c : SetId) (par : Params) (s : State) :
    Work (· ≠ x) s (defineNew x j r c par s) :=
  ((work_refRing r s).trans (work_refSet c _)).trans (.putOwn (Job.fresh x r c par 0))

theorem work_redefine (x : Port) (j : JobId) (b : Job) (r : RingId) (c : SetId) (par : Params) (s : State) :
    Work (· ≠ x) s (redefine x j b r c par s) := by
  have hring : Work (· ≠ x) s (unrefRing b.ring (refRing r s)) :=
    (work_refRing r s).trans (work_unrefRing b.ring _)
  have hset := (hring.trans (work_refSet c _)).trans (work_unrefSet b.set _)
  have hjob : Work (· ≠ x) s ((unrefSet b.set (refSet c (unrefRing b.ring (refRing r s)))).putJob j
      (some (Job.fresh x r c par b.runNumber))) := hset.trans (.putOwn (Job.fresh x r c par b.runNumber))
  unfold redefine
  exact hjob.trans (.modSession rfl)

theorem jobDefine_works (x : Port) : BlockWorks x (jobDefine x) := by
  intro args s a h
  unfold jobDefine at h
  split at h <;> cases h
  simp only
  iterate 3 (split; · exact .refl s)
  split
  · exact work_defineNew x _ _ _ _ s
  · exact work_redefine x _ _ _ _ _ s

theorem jobArm_works (x : Port) : BlockWorks x (jobArm x) := by
  intro args s a h
  unfold jobArm at h
  split at h <;> cases h
  simp only
  split
  · exact .refl s
  rename_i j b hj
  iterate 2 (split; · exact .refl s)
  exact .putJob (ownedJob_ok hj) rfl

theorem jobStart_works (x : Port) : BlockWorks x (jobStart x) := by
  intro args s a h
  unfold jobStart at h
  split at h <;> cases h
  simp only
  split
  · exact .refl s
  rename_i j b hj
  iterate 2 (split; · exact .refl s)
  exact work_fire _ _ (ownedJob_ok hj) rfl

theorem jobCancel_works (x : Port) : BlockWorks x (jobCancel x) := by
  intro args s a h
  unfold jobCancel at h
  split at h <;> cases h
  simp only
  split
  · exact .refl s
  · rename_i j b hj
    exact (work_abandon j b s).trans (.putJob ((job_abandon j j b s).trans (ownedJob_ok hj)) rfl)

theorem jobDelete_works (x : Port) : BlockWorks x (jobDelete x) := by
  intro args s a h
  unfold jobDelete at h
  split at h <;> cases h
  split
  · exact .refl s
  · exact work_deleteJob _ s

theorem work_putWatch {x : Port} {j : JobId} {b : Job} {s : State} (w : Option Watch)
    (hj : s.job j = some b) : Work (· ≠ x) s (putWatch x j b w s) := by
  have h1 : Work (· ≠ x) s (s.putJob j (some { b with watch := w })) := .putJob hj rfl
  exact h1.trans (.modSession rfl)

theorem jobWatch_works (x : Port) : BlockWorks x (jobWatch x) := by
  intro args s a h
  unfold jobWatch at h
  split at h <;> cases h
  simp only
  split
  · exact .refl s
  rename_i j b hj
  split
  · exact work_putWatch none (ownedJob_ok hj)
  iterate 2 (split; · exact .refl s)
  exact work_putWatch _ (ownedJob_ok hj)

theorem fetchBlock_works (x : Port) : BlockWorks x (fetchBlock x) := by
  intro args s a h
  unfold fetchBlock at h
  split at h <;> cases h
  simp only
  split
  · exact .refl s
  · exact work_removeOldest x _ s

end Sys2Proof.Machine
end

section
/-! SUPPORT. What a teardown makes of each ring and each set (01 R23, 06 R118). -/

namespace Sys2Proof.Machine

theorem mem_allRings (r : RingId) : r ∈ allRings := List.mem_finRange r

theorem mem_allSets (c : SetId) : c ∈ allSets := List.mem_finRange c

/-! ### Rings (01 R23) -/

/-- A ring's record once session `x` is torn down: freed or orphaned when it is the session's. -/
def Ring.left (x : Port) (g : Ring) : Option Ring :=
  if g.owner = some x then
    if g.refs = 0 then none else some { g with owner := none, orphaned := true }
  else some g

theorem Ring.left_of_owner {x : Port} {g : Ring} (h : g.owner = some x) :
    g.left x = if g.refs = 0 then none else some { g with owner := none, orphaned := true } := if_pos h

theorem Ring.left_of_ne {x : Port} {g : Ring} (h : g.owner ≠ some x) : g.left x = some g := if_neg h

theorem Ring.owner_of_left {x : Port} {g h : Ring} (e : g.left x = some h) : h.owner ≠ some x := by
  unfold Ring.left at e
  split at e
  · split at e <;> cases e
    exact nofun
  · cases e
    assumption

/-- A second turn changes nothing. -/
theorem Ring.left_left (x : Port) (g : Ring) : (g.left x).bind (Ring.left x) = g.left x := by
  cases e : g.left x with
  | none => rfl
  | some h => exact Ring.left_of_ne (Ring.owner_of_left e)

theorem ring_leaveRing (x : Port) (r k : RingId) (s : State) :
    (leaveRing x s r).ring k = if k = r then (s.ring k).bind (Ring.left x) else s.ring k := by
  unfold leaveRing
  cases hr : s.ring r with
  | none => by_cases hk : k = r <;> simp [hk, hr]
  | some g =>
    simp only
    by_cases hk : k = r
    · rw [if_pos hk, hk, hr, Option.bind_some]
      split
      · rw [Ring.left_of_owner ‹_›]
        split
        · rw [ring_freeRing, if_pos rfl]
        · rw [State.ring_putRing, if_pos rfl]
      · rw [Ring.left_of_ne ‹_›, hr]
    · rw [if_neg hk]
      split
      · split
        · rw [ring_freeRing, if_neg hk]
        · rw [State.ring_putRing, if_neg hk]
      · rfl

theorem leaveRing_only (x : Port) (s : State) (r : RingId) : RingsOnly s (leaveRing x s r) := by
  unfold leaveRing
  cases s.ring r with
  | none => exact .refl s
  | some g =>
    simp only
    split
    · split
      · exact freeRing_only r s
      · exact putRing_only s r _
    · exact .refl s

theorem ring_leaveRings (x : Port) (k : RingId) (l : List RingId) (s : State) :
    (l.foldl (leaveRing x) s).ring k = if k ∈ l then (s.ring k).bind (Ring.left x) else s.ring k := by
  induction l generalizing s with
  | nil => rfl
  | cons r l ih =>
    rw [List.foldl_cons, ih, ring_leaveRing]
    by_cases hk : k = r
    · have twice : ((s.ring r).bind (Ring.left x)).bind (Ring.left x) = (s.ring r).bind (Ring.left x) := by
        rw [Option.bind_assoc]
        exact congrArg _ (funext (Ring.left_left x))
      simp [hk, twice]
    · simp [hk]

theorem leaveRings_only (x : Port) (l : List RingId) (s : State) :
    RingsOnly s (l.foldl (leaveRing x) s) := by
  induction l generalizing s with
  | nil => exact .refl s
  | cons r l ih => exact (leaveRing_only x s r).trans (ih _)

/-! ### Sets (06 R118) -/

/-- A set's record once session `x` is torn down: a READY one of the session is freed or orphaned. -/
def CoefSet.left (x : Port) (v : CoefSet) : Option CoefSet :=
  match v.phase with
  | .ready _ crc =>
    if v.owner = some x then
      if v.refs = 0 then none else some { v with owner := none, phase := .ready true crc }
    else some v
  | .loading => some v

theorem CoefSet.left_of_ready {x : Port} {v : CoefSet} {o : Bool} {crc : Word16}
    (hp : v.phase = .ready o crc) (h : v.owner = some x) : v.left x =
      if v.refs = 0 then none else some { v with owner := none, phase := .ready true crc } := by
  simp only [CoefSet.left, hp, h, if_true]

theorem CoefSet.left_of_loading {x : Port} {v : CoefSet} (hp : v.phase = .loading) :
    v.left x = some v := by simp only [CoefSet.left, hp]

theorem CoefSet.left_of_ne {x : Port} {v : CoefSet} (h : v.owner ≠ some x) : v.left x = some v := by
  unfold CoefSet.left
  split
  · rw [if_neg h]
  · rfl

theorem CoefSet.owner_of_left {x : Port} {v w : CoefSet} (e : v.left x = some w) :
    w.phase = .loading ∨ w.owner ≠ some x := by
  cases hp : v.phase with
  | loading =>
    rw [CoefSet.left_of_loading hp] at e
    cases e
    exact .inl hp
  | ready o crc =>
    by_cases ho : v.owner = some x
    · rw [CoefSet.left_of_ready hp ho] at e
      split at e <;> cases e
      exact .inr nofun
    · rw [CoefSet.left_of_ne ho] at e
      cases e
      exact .inr ho

/-- A second turn changes nothing. -/
theorem CoefSet.left_left (x : Port) (v : CoefSet) : (v.left x).bind (CoefSet.left x) = v.left x := by
  cases e : v.left x with
  | none => rfl
  | some w => exact (CoefSet.owner_of_left e).elim CoefSet.left_of_loading CoefSet.left_of_ne

theorem coef_leaveSet (x : Port) (c k : SetId) (s : State) :
    (leaveSet x s c).coef k = if k = c then (s.coef k).bind (CoefSet.left x) else s.coef k := by
  unfold leaveSet
  cases hc : s.coef c with
  | none => by_cases hk : k = c <;> simp [hk, hc]
  | some v =>
    by_cases hk : k = c
    · rw [if_pos hk, hk, hc, Option.bind_some]
      cases hp : v.phase with
      | loading => simp only [hp, CoefSet.left_of_loading hp, hc]
      | ready o crc =>
        simp only [hp]
        split
        · rw [CoefSet.left_of_ready hp ‹_›]
          split
          · rw [coef_freeSet, if_pos rfl]
          · rw [State.coef_putCoef, if_pos rfl]
        · rw [CoefSet.left_of_ne ‹_›, hc]
    · rw [if_neg hk]
      cases hp : v.phase with
      | loading => simp only [hp]
      | ready o crc =>
        simp only [hp]
        split
        · split
          · rw [coef_freeSet, if_neg hk]
          · rw [State.coef_putCoef, if_neg hk]
        · rfl

theorem leaveSet_only (x : Port) (s : State) (c : SetId) : SetsOnly s (leaveSet x s c) := by
  unfold leaveSet
  cases s.coef c with
  | none => exact .refl s
  | some v =>
    cases hp : v.phase with
    | loading => simp only [hp]; exact .refl s
    | ready o crc =>
      simp only [hp]
      split
      · split
        · exact freeSet_only c s
        · exact putCoef_only s c _
      · exact .refl s

theorem coef_leaveSets (x : Port) (k : SetId) (l : List SetId) (s : State) :
    (l.foldl (leaveSet x) s).coef k = if k ∈ l then (s.coef k).bind (CoefSet.left x) else s.coef k := by
  induction l generalizing s with
  | nil => rfl
  | cons c l ih =>
    rw [List.foldl_cons, ih, coef_leaveSet]
    by_cases hk : k = c
    · have twice : ((s.coef c).bind (CoefSet.left x)).bind (CoefSet.left x) = (s.coef c).bind (CoefSet.left x) := by
        rw [Option.bind_assoc]
        exact congrArg _ (funext (CoefSet.left_left x))
      simp [hk, twice]
    · simp [hk]

theorem leaveSets_only (x : Port) (l : List SetId) (s : State) : SetsOnly s (l.foldl (leaveSet x) s) := by
  induction l generalizing s with
  | nil => exact .refl s
  | cons c l ih => exact (leaveSet_only x s c).trans (ih _)

/-! ### The teardown (08 R149) -/

/-- The state after step 2 of a teardown: the load context is closed and the session's jobs are gone. -/
def jobsGone (x : Port) (s : State) : State := allJobs.foldl (deleteOwned x) (closeLoad x s)

/-- The state after step 3 of a teardown: the session's rings and sets have left it too. -/
def objectsGone (x : Port) (s : State) : State :=
  allSets.foldl (leaveSet x) (allRings.foldl (leaveRing x) (jobsGone x s))

theorem teardown_eq (x : Port) (s : State) :
    teardown x s = (objectsGone x s).putSession x Session.closed := rfl

theorem jobs_objectsGone (x : Port) (s : State) : (objectsGone x s).jobs = (jobsGone x s).jobs :=
  (leaveSets_only x allSets _).jobs.trans (leaveRings_only x allRings _).jobs

theorem sessions_objectsGone (x : Port) (s : State) :
    (objectsGone x s).sessions = (jobsGone x s).sessions :=
  (leaveSets_only x allSets _).sessions.trans (leaveRings_only x allRings _).sessions

@[simp] theorem job_teardown (x : Port) (j : JobId) (s : State) :
    (teardown x s).job j = (jobsGone x s).job j := by
  rw [teardown_eq, State.job_putSession]
  exact congrArg (Table.look · j) (jobs_objectsGone x s)

@[simp] theorem ring_teardown (x : Port) (r : RingId) (s : State) :
    (teardown x s).ring r = ((jobsGone x s).ring r).bind (Ring.left x) := by
  rw [teardown_eq, State.ring_putSession, objectsGone, (leaveSets_only x allSets _).ring, ring_leaveRings,
    if_pos (mem_allRings r)]

@[simp] theorem coef_teardown (x : Port) (c : SetId) (s : State) :
    (teardown x s).coef c = ((jobsGone x s).coef c).bind (CoefSet.left x) := by
  rw [teardown_eq, State.coef_putSession, objectsGone, coef_leaveSets, if_pos (mem_allSets c),
    (leaveRings_only x allRings _).coef]

theorem session_teardown (x y : Port) (s : State) :
    (teardown x s).session y = if y = x then Session.closed else (jobsGone x s).session y := by
  rw [teardown_eq, State.session_putSession]
  exact congrArg (ite _ _) (congrArg (Pair.look · y) (sessions_objectsGone x s))

/-- No job is left to the session. -/
theorem ownerOf_jobsGone (x : Port) (j : JobId) (s : State) : ownerOf j (jobsGone x s) ≠ some x :=
  ownerOf_deleteAll allJobs (.inl (mem_allJobs j))

end Sys2Proof.Machine
end

section
/-! SUPPORT. How every happening evolves the sessions: each record through turns, and a CLOSED session stays
without objects and with empty lists (08 R131, R142, R149; 09 R157, R158). -/

namespace Sys2Proof.Machine

/-! ### Evolution -/

/-- What a session's record keeps for the other units: its results, held order list, load context and pending
list. -/
def Session.own (z : Session) : List Record × List JobId × Option Load × List Entry :=
  (z.results, z.heldOrder, z.load, z.pendingList)

/-- Jobs, rings, sets and the session's lists are the same. -/
theorem Bare.of_eq {x : Port} {s t : State} (h : Bare x s) (hj : t.jobs = s.jobs) (hr : t.rings = s.rings)
    (hc : t.sets = s.sets) (ho : (t.session x).own = (s.session x).own) : Bare x t := by
  have job : ∀ j, t.job j = s.job j := fun j => congrArg (Table.look · j) hj
  have ring : ∀ r, t.ring r = s.ring r := fun r => congrArg (Table.look · r) hr
  have coef : ∀ c, t.coef c = s.coef c := fun c => congrArg (Table.look · c) hc
  obtain ⟨hresults, hheld, hload, hpending⟩ : _ ∧ _ ∧ _ ∧ _ := by
    simpa only [Session.own, Prod.mk.injEq] using ho
  obtain ⟨h1, h2, h3, h4, h5, h6, h7⟩ := h
  exact ⟨by simpa only [job], by simpa only [ring], by simpa only [coef], hresults.trans h4,
    hheld.trans h5, hload.trans h6, hpending.trans h7⟩

/-- The close of the other session's record. -/
theorem Bare.close {x y : Port} {s : State} (h : Bare y s) (hy : y ≠ x) :
    Bare y (s.putSession x Session.closed) := h.of_eq rfl rfl rfl (by simp [hy])

/-- The law of references speaks of jobs, rings, sets and load contexts. -/
theorem ReferenceLaw.of_records {s t : State} (h : ReferenceLaw s) (hj : t.jobs = s.jobs)
    (hr : t.rings = s.rings) (hc : t.sets = s.sets) (hl : ∀ x, (t.session x).load = (s.session x).load) :
    ReferenceLaw t := by
  rw [referenceLaw_iff] at h ⊢
  obtain ⟨hrings, hsets, hloads⟩ := h
  have coef : ∀ c, t.coef c = s.coef c := fun c => congrArg (Table.look · c) hc
  exact ⟨hrings.of_eq hr hj, hsets.of_eq hc hj, hloads.of_same (fun c => congrArg _ (coef c)) hl⟩

/-- What a happening, or a part of one, makes of the sessions. -/
structure Evolves (s t : State) : Prop where
  turns : ∀ x, (s.session x).Turns (t.session x)
  refs : ReferenceLaw s → ReferenceLaw t
  bare : ReferenceLaw s → ClosedLaw s → ∀ x, (t.session x).isOpen = false → Bare x t

/-- A CLOSED session stays without objects and with empty lists (08 R131). -/
theorem Evolves.closed {s t : State} (h : Evolves s t) (hr : ReferenceLaw s) (hc : ClosedLaw s) :
    ClosedLaw t :=
  (closedLaw_iff t).mpr ⟨fun x => (h.turns x).keeps Session.Still.turn (((closedLaw_iff s).mp hc).1 x),
    h.bare hr hc⟩

theorem Evolves.refl (s : State) : Evolves s s :=
  ⟨fun _ => .refl, id, fun _ hc => ((closedLaw_iff s).mp hc).2⟩

theorem Evolves.trans {s t u : State} (h : Evolves s t) (h' : Evolves t u) : Evolves s u :=
  ⟨fun x => (h.turns x).trans (h'.turns x), fun hr => h'.refs (h.refs hr),
    fun hr hc => h'.bare (h.refs hr) (h.closed hr hc)⟩

theorem Evolves.foldl {α : Type} {f : State → α → State} (h : ∀ s a, Evolves s (f s a)) (l : List α)
    (s : State) : Evolves s (l.foldl f s) := by
  induction l generalizing s with
  | nil => exact .refl s
  | cons a l ih => exact (h s a).trans (ih _)

theorem Work.isOpen {P : Port → Prop} {s t : State} (h : Work P s t) (x : Port) :
    (t.session x).isOpen = (s.session x).isOpen := by
  have e := congrArg Session.isOpen (h.link x)
  exact e

/-- Work of the units that keeps the law of references. -/
theorem Evolves.of_work {s t : State} (h : Work (fun _ => True) s t)
    (hr : ReferenceLaw s → ReferenceLaw t) : Evolves s t := by
  refine ⟨fun x => (Session.Turn.same (h.link x)).turns, hr, fun _ hc x hx => h.bare x trivial ?_⟩
  exact ((closedLaw_iff s).mp hc).2 x ((h.isOpen x).symm.trans hx)

/-- Jobs, rings, sets and sessions are the same. -/
theorem Evolves.of_records {s t : State} (hj : t.jobs = s.jobs) (hr : t.rings = s.rings)
    (hc : t.sets = s.sets) (hs : t.sessions = s.sessions) : Evolves s t :=
  .of_work (.of_records hj hr hc hs) fun h =>
    h.of_records hj hr hc fun x => congrArg (fun p => (Pair.look p x).load) hs

theorem Changes.evolves {s t : State} (hc : Changes s t) (h : Work (fun _ => True) s t) : Evolves s t :=
  .of_work h (hc.keeps ReferenceLaw.change)

/-- One session's record takes a turn that leaves its objects and lists, or leaves it OPEN. -/
theorem Evolves.modSession {s : State} {x : Port} {f : Session → Session}
    (ht : (s.session x).Turn (f (s.session x))) (hl : (f (s.session x)).load = (s.session x).load)
    (ho : (f (s.session x)).isOpen = true ∨ (f (s.session x)).own = (s.session x).own ∧
      (f (s.session x)).isOpen = (s.session x).isOpen) : Evolves s (s.modSession x f) := by
  have at_x : (s.modSession x f).session x = f (s.session x) := by simp
  have other : ∀ y, y ≠ x → (s.modSession x f).session y = s.session y := fun y hy => by simp [hy]
  refine ⟨fun y => ?_, fun h => h.of_records rfl rfl rfl fun y => ?_, fun _ hc y hy => ?_⟩
  · by_cases hy : y = x
    · rw [hy, at_x]
      exact ht.turns
    · rw [other y hy]
      exact .refl
  · by_cases hy : y = x
    · rw [hy, at_x, hl]
    · rw [other y hy]
  · have hbare := ((closedLaw_iff s).mp hc).2 y
    by_cases hx : y = x
    · rw [hx, at_x] at hy
      rcases ho with ho | ⟨hown, hopen⟩
      · exact absurd (ho.symm.trans hy) nofun
      · subst hx
        exact (hbare (hopen.symm.trans hy)).of_eq rfl rfl rfl (congrArg Session.own at_x |>.trans hown)
    · rw [other y hx] at hy
      exact (hbare hy).of_eq rfl rfl rfl (congrArg Session.own (other y hx))

theorem evolves_modPort (s : State) (p : Port) (f : PortState → PortState) : Evolves s (s.modPort p f) :=
  .of_records rfl rfl rfl rfl

/-! ### Sending and the transmitters (09 R157, R159; 10 R174 to R180) -/

theorem work_reportClass {P : Port → Prop} (e : Entry) (s : State) : Work P s (reportClass e s) := by
  unfold reportClass
  cases e with
  | alert j c v run n =>
    cases hj : s.job j with
    | none => simp only [hj]; exact .refl s
    | some b =>
      cases hw : b.watch with
      | none => simp only [hj, hw]; exact .refl s
      | some w => simp only [hj, hw]; exact .putJob hj rfl
  | fault j r n => exact .refl s
  | overrun j n => exact .refl s
  | results => exact .refl s

/-- A notice unit makes an offer only while its session is OPEN (09 R156). -/
theorem isOpen_of_offer {x : Port} {s : State} (h : offer x s ≠ .nothing) : (s.session x).isOpen = true := by
  unfold offer at h
  by_contra hn
  exact h (if_neg hn)

theorem evolves_sendEntry {x : Port} (e : Entry) (rest : List Entry) {s : State}
    (h : (s.session x).isOpen = true) : Evolves s (sendEntry x e rest s) := by
  have hwork := work_reportClass (P := fun _ => True) e s
  have hopen : ((reportClass e s).session x).isOpen = true :=
    (hwork.isOpen x).trans h
  exact ((plains_reportClass e s).changes.evolves hwork).trans
    (.modSession (.send _ rest hopen rfl) rfl (.inl hopen))

theorem evolves_arbiter (p : Port) (s : State) : Evolves s (arbiter p s).2 := by
  unfold arbiter
  cases (s.port p).fifo with
  | cons f rest => exact evolves_modPort s p fun q => { q with fifo := rest }
  | nil =>
    cases ho : offer p s with
    | again n =>
      exact .modSession (f := fun z => { z with inFlight := unmarkFirst z.inFlight }) .resend rfl
        (.inr ⟨rfl, rfl⟩)
    | fresh e rest => exact evolves_sendEntry e rest (isOpen_of_offer (by rw [ho]; nofun))
    | nothing => exact .refl s

theorem evolves_askU (s : State) : Evolves s (askU s) := by
  unfold askU
  cases s.txU with
  | some f => exact .refl s
  | none => exact (evolves_arbiter .u s).trans (.of_records rfl rfl rfl rfl)

theorem evolves_askS (s : State) : Evolves s (askS s) := by
  have h := evolves_arbiter .s s
  unfold askS
  rcases ha : arbiter .s s with ⟨f, s'⟩
  rw [ha] at h
  cases f <;> exact h.trans (.of_records rfl rfl rfl rfl)

theorem evolves_finish (s : State) : Evolves s (finish s) :=
  ((plains_startStep s).changes.evolves (work_startStep s)).trans (evolves_askU _)

theorem Evolves.finish {s t : State} (h : Evolves s t) : Evolves s (finish t) := h.trans (evolves_finish t)

/-- The notices in flight change and the timer is set afresh (09 R158). -/
theorem evolves_retime {s : State} {x : Port} {f : Session → Session} (l : List Notice) (retry : Nat)
    (hf : f (s.session x) = { s.session x with inFlight := l, retry := retry })
    (hl : (l.map fun n => n.frame.seq) <:+ (s.session x).inFlight.map fun n => n.frame.seq)
    (hm : ∀ n ∈ l, n.marked = true → n ∈ (s.session x).inFlight ∨ n.sentAt = none) :
    Evolves s (setTimer x (s.modSession x f)) := by
  rw [setTimer, modSession_modSession]
  refine .modSession ?_ ?_ (.inr ⟨?_, ?_⟩) <;> rw [hf]
  · exact .retime l retry hl hm
  all_goals rfl

theorem evolves_noticeSent (x : Port) (f : Frame) (s : State) : Evolves s (noticeSent x f s) := by
  unfold noticeSent
  split
  · refine evolves_retime _ (s.session x).retry rfl ?_ fun n hn hmark => ?_
    · rw [List.map_map]
      refine (List.map_congr_left fun n _ => ?_).symm ▸ List.suffix_refl _
      exact apply_ite (fun n : Notice => n.frame.seq) _ _ _ |>.trans (ite_self _)
    · obtain ⟨m, hm, rfl⟩ := List.mem_map.mp hn
      by_cases h : m.frame.seq = f.seq ∧ ¬ m.marked = true
      · rw [if_pos h] at hmark
        exact absurd hmark h.2
      · rw [if_neg h]
        exact .inl hm
  · exact .refl s

theorem evolves_endS (s : State) : Evolves s (endS s) := by
  unfold endS
  cases s.txS.current with
  | none => exact .refl s
  | some o =>
    have h1 : Evolves s { s with txS := { s.txS with current := none, filler := false } } :=
      .of_records rfl rfl rfl rfl
    simp only
    split
    · exact h1.trans (evolves_noticeSent _ _ _)
    · exact .refl s

theorem evolves_startExchange (s : State) : Evolves s (startExchange s) := by
  have h : Evolves s (select (endS s)) := (evolves_endS s).trans (.of_records rfl rfl rfl rfl)
  unfold startExchange
  simp only
  split
  · exact h.trans (evolves_askS _)
  · exact h

theorem evolves_exchangeS (s : State) : Evolves s (exchangeS s) := by
  unfold exchangeS
  simp only
  split <;> exact (evolves_startExchange s).trans (.of_records rfl rfl rfl rfl)

/-! ### Teardown and opening (08 R134, R149, R150) -/

theorem work_jobsGone (x : Port) (s : State) : Work (· ≠ x) s (jobsGone x s) :=
  (work_closeLoad x s).trans (.foldl (work_deleteOwned x) allJobs _)

theorem work_objectsGone (x : Port) (s : State) : Work (· ≠ x) s (objectsGone x s) :=
  ((work_jobsGone x s).trans (.foldl (work_leaveRing x) allRings _)).trans
    (.foldl (work_leaveSet x) allSets _)

theorem referenceLaw_teardown (x : Port) {s : State} (h : ReferenceLaw s) : ReferenceLaw (teardown x s) :=
  (changes_teardown x s).keeps ReferenceLaw.change h

/-- A set that a session torn down owned would be LOADING, and no load context is left to hold it (06 R108). -/
theorem owner_coef_teardown {x : Port} {s : State} (h : ReferenceLaw s) {c : SetId} {v : CoefSet}
    (hv : (teardown x s).coef c = some v) : v.owner ≠ some x := fun ho => by
  have hleft := hv
  rw [coef_teardown, Option.bind_eq_some_iff] at hleft
  obtain ⟨w, -, hw⟩ := hleft
  rcases CoefSet.owner_of_left hw with hp | hn
  · obtain ⟨y, l, hy, hl, -⟩ := (referenceLaw_teardown x h).loading c v hv hp
    cases ho.symm.trans hy
    rw [session_teardown, if_pos rfl] at hl
    cases hl
  · exact hn ho

/-- Nothing is left to the session that is torn down (08 R149). -/
theorem bare_teardown (x : Port) {s : State} (h : ReferenceLaw s) : Bare x (teardown x s) := by
  have hz : (teardown x s).session x = Session.closed := by rw [session_teardown, if_pos rfl]
  refine ⟨fun j b hb ho => ?_, fun r g hg => ?_, fun c v hv => owner_coef_teardown h hv, ?_, ?_, ?_, ?_⟩
  · refine ownerOf_jobsGone x j s ?_
    rw [job_teardown] at hb
    rw [ownerOf_eq, hb, Option.map_some, ho]
  · rw [ring_teardown, Option.bind_eq_some_iff] at hg
    obtain ⟨g', -, hg⟩ := hg
    exact Ring.owner_of_left hg
  all_goals rw [hz]; rfl

theorem evolves_teardown (x : Port) (s : State) : Evolves s (teardown x s) := by
  have hz : (teardown x s).session x = Session.closed := by rw [session_teardown, if_pos rfl]
  have hother : ∀ y, y ≠ x → (teardown x s).session y = (objectsGone x s).session y := fun y hy => by
    rw [teardown_eq, State.session_putSession, if_neg hy]
  refine ⟨fun y => ?_, referenceLaw_teardown x, fun hr hc y hy => ?_⟩ <;> by_cases hyx : y = x
  · rw [hyx, hz]
    exact Session.Turn.closed.turns
  · rw [hother y hyx]
    exact (Session.Turn.same ((work_objectsGone x s).link y)).turns
  · rw [hyx]
    exact bare_teardown x hr
  · have hopen := (work_objectsGone x s).isOpen y
    rw [hother y hyx] at hy
    exact ((work_objectsGone x s).bare y hyx
      (((closedLaw_iff s).mp hc).2 y (hopen.symm.trans hy))).close hyx

theorem evolves_teardownIfOpen (x : Port) (s : State) : Evolves s (teardownIfOpen x s) := by
  unfold teardownIfOpen
  split
  · exact evolves_teardown x s
  · exact .refl s

/-- A session is CLOSED once it is torn down if OPEN (08 R150). -/
theorem isOpen_teardownIfOpen (x : Port) (s : State) :
    ((teardownIfOpen x s).session x).isOpen = false := by
  unfold teardownIfOpen
  split
  · rw [session_teardown, if_pos rfl]
    rfl
  · exact Bool.eq_false_iff.mpr ‹_›

theorem evolves_openSession (x : Port) (timeout : Nat) (notify : Bool) {s : State}
    (h : (s.session x).isOpen = false) : Evolves s (openSession x timeout notify s) :=
  .modSession (.opened timeout notify h) rfl (.inl rfl)

/-! ### The execution of a command (08 R143 to R147) -/

theorem evolves_place (p : Port) (f : Frame) (s : State) : Evolves s (place p f s) :=
  evolves_modPort s p fun q => { q with fifo := q.fifo ++ [f] }

/-- A command is taken, its block does its work, and the reply is cached and placed (08 R145). -/
theorem evolves_reply {x : Port} {s u : State} {c : Command} {rest : List Command} {f : Frame}
    (hq : (s.session x).queue = c :: rest) (hf : f.seq = c.seq)
    (hw : Work (· ≠ x) (takeCommand x rest s) u) (hc : Changes (takeCommand x rest s) u) :
    Evolves s (reply x f u) := by
  have taken := fun y => session_takeCommand x y rest s
  have replied : ∀ y, (reply x f u).session y =
      if y = x then { u.session x with cache := cacheReply f (u.session x).cache } else u.session y :=
    fun y => State.session_modSession u x (fun z => { z with cache := cacheReply f z.cache }) y
  refine ⟨fun y => ?_, fun hr => ?_, fun _ hclosed y hy => ?_⟩
  · rw [replied]
    have hlink := hw.link y
    rw [taken] at hlink
    split at hlink
    · rename_i hyx
      subst hyx
      rw [if_pos rfl]
      refine (Session.Turn.answer (f := f) hq hf).turns.tail (.same ?_)
      exact congrArg (fun z : Session => { z with cache := cacheReply f z.cache }) hlink
    · rw [if_neg ‹_›]
      exact (Session.Turn.same hlink).turns
  · have hu := hc.keeps ReferenceLaw.change
      ((plains_takeCommand hq).changes.keeps ReferenceLaw.change hr)
    refine hu.of_records rfl rfl rfl fun y => ?_
    rw [replied]
    split
    · rename_i hyx
      rw [hyx]
    · rfl
  · obtain ⟨hstill, hbare⟩ := (closedLaw_iff s).mp hclosed
    have hopen := hw.isOpen y
    rw [taken] at hopen
    by_cases hyx : y = x
    · subst hyx
      rw [replied, if_pos rfl] at hy
      rw [if_pos rfl] at hopen
      have hempty := (hstill y (hopen.symm.trans hy)).1
      rw [hq] at hempty
      cases hempty
    · rw [replied, if_neg hyx] at hy
      rw [if_neg hyx] at hopen
      have h1 : Bare y (takeCommand x rest s) := (hbare y (hopen.symm.trans hy)).of_eq rfl rfl rfl
        (by rw [taken, if_neg hyx])
      exact (hw.bare y hyx h1).of_eq rfl rfl rfl (by rw [replied, if_neg hyx])

/-- A block that works for its session, and whose answer is a chain of changes. -/
structure BlockEvolves (x : Port) (act : List Byte → State → Option Answer) : Prop where
  works : BlockWorks x act
  changes : ∀ args s a, act args s = some a → Changes s a.state

theorem ChangesNothing.evolves {act : List Byte → State → Option Answer} (h : ChangesNothing act) (x : Port) :
    BlockEvolves x act := ⟨h.works x, h.changes⟩

theorem evolves_execute {x : Port} {code : Byte} {act : List Byte → State → Option Answer}
    (hact : BlockEvolves x act) {s t : State} (h : execute x code act s = some t) : Evolves s t := by
  unfold execute at h
  cases hn : nextCommand x s with
  | none => simp [hn] at h
  | some cr =>
    obtain ⟨c, rest⟩ := cr
    have hq := (nextCommand_eq_some hn).1
    simp only [hn] at h
    split at h
    · split at h
      · rename_i a ha
        cases h
        exact evolves_reply hq rfl (hact.works _ _ _ ha) (hact.changes _ _ _ ha)
      · cases h
        exact evolves_reply hq rfl (.refl _) (.refl _)
    · cases h

theorem evolves_runCommand {act : List Byte → State → Option Answer} {x : Port} (hact : BlockEvolves x act)
    (code : Byte) (s : State) : Evolves s (runCommand x code act s) := by
  unfold runCommand
  cases h : execute x code act s with
  | none => exact .refl s
  | some t => exact (evolves_execute hact h).finish

theorem evolves_badKind (x : Port) (s : State) : Evolves s (badKind x s) := by
  unfold badKind
  cases hn : nextCommand x s with
  | none => exact .refl s
  | some cr =>
    obtain ⟨c, rest⟩ := cr
    simp only
    split
    · exact .refl s
    · exact (evolves_reply (nextCommand_eq_some hn).1 rfl (.refl _) (.refl _)).finish

theorem evolves_bye (x : Port) (s : State) : Evolves s (bye x s) := by
  unfold bye
  cases h : execute x 0x11 byeBlock s with
  | none => exact .refl s
  | some t =>
    have h1 := evolves_execute (byeBlock_changesNothing.evolves x) h
    refine Evolves.finish ?_
    split
    · exact h1.trans (evolves_teardown x t)
    · exact h1

/-! ### Arrivals, bytes and timers (08 R133 to R141, 09 R160 to R163, 10 R168 to R173) -/

theorem evolves_placeIfRoom (p : Port) (f : Frame) (s : State) : Evolves s (placeIfRoom p f s) := by
  unfold placeIfRoom
  split
  · exact evolves_place p f s
  · exact .refl s

theorem evolves_arriveHello (x : Port) (f : Frame) (s : State) : Evolves s (arriveHello x f s) := by
  have refused : ∀ st, Evolves s (place x (replyFrame f.seq st codeHello []) s) :=
    fun st => evolves_place x _ s
  unfold arriveHello
  split
  · unfold takeHello
    simp only
    split
    · iterate 3 (split; · exact refused _)
      exact ((evolves_teardownIfOpen x s).trans
        (evolves_openSession x _ _ (isOpen_teardownIfOpen x s))).trans (evolves_place x _ _)
    · exact refused _
  · exact .refl s

theorem evolves_accept {x : Port} (f : Frame) {s : State} (h : (s.session x).isOpen = true) :
    Evolves s (accept x f s) := by
  unfold accept
  simp only
  split
  · rename_i hseq
    split
    · exact .modSession (f := fun z => { z with
        queue := z.queue ++ [{ seq := f.seq, payload := f.payload }], expected := z.expected + 1 })
        (.accept _ h hseq) rfl (.inr ⟨rfl, rfl⟩)
    · exact evolves_placeIfRoom _ _ _
  · split
    · exact .refl s
    · split <;> exact evolves_placeIfRoom _ _ _

theorem evolves_arriveCommand (x : Port) (f : Frame) (s : State) : Evolves s (arriveCommand x f s) := by
  unfold arriveCommand
  split
  · exact evolves_arriveHello x f s
  · split
    · exact evolves_accept f ‹_›
    · exact evolves_placeIfRoom _ _ _

theorem evolves_arriveAck (x : Port) (f : Frame) (s : State) : Evolves s (arriveAck x f s) := by
  unfold arriveAck
  split
  · cases hy : younger f.seq (s.session x).inFlight with
    | none => exact .refl s
    | some rest =>
      have hsuffix := younger_suffix hy
      exact evolves_retime rest 0 rfl (hsuffix.map _) fun n hn _ => .inl (hsuffix.mem hn)
  · exact .refl s

theorem evolves_lineError (p : Port) (s : State) : Evolves s (lineError p s) := evolves_modPort s p _

theorem evolves_resolve (p : Port) (f : Frame) (good : Bool) (s : State) : Evolves s (resolve p f good s) := by
  unfold resolve
  split
  · exact evolves_lineError p s
  · split
    · exact evolves_arriveCommand p f s
    · split
      · exact evolves_arriveAck p f s
      · split
        · exact .refl s
        · exact evolves_lineError p s

theorem evolves_deliver (p : Port) (b : Byte) (s : State) : Evolves s (deliver p b s) := by
  have h1 : Evolves s (exchange p s) := by
    cases p
    · exact .refl s
    · exact evolves_exchangeS s
  have h2 : Evolves s (noteByteU p (exchange p s)) :=
    h1.trans (by cases p <;> exact .of_records rfl rfl rfl rfl)
  have h3 : Evolves s ((noteByteU p (exchange p s)).modPort p fun q =>
      { q with rx := (((noteByteU p (exchange p s)).port p).rx.take b).1 }) :=
    h2.trans (evolves_modPort _ p _)
  unfold deliver
  simp only
  split
  · exact h3
  · exact h3.trans (evolves_lineError p _)
  · exact h3.trans (evolves_resolve p _ _ _)

theorem evolves_markAll (x : Port) (s : State) : Evolves s (markAll x s) := by
  refine evolves_retime _ ((s.session x).retry + 1) rfl ?_ fun n hn hmark => ?_
  · rw [List.map_map]
    refine (List.map_congr_left fun n _ => ?_).symm ▸ List.suffix_refl _
    exact apply_ite (fun n : Notice => n.frame.seq) _ _ _ |>.trans (ite_self _)
  · obtain ⟨m, hm, rfl⟩ := List.mem_map.mp hn
    split
    · exact .inl hm
    · exact .inr rfl

theorem evolves_expire (x : Port) (s : State) : Evolves s (expire x s) := by
  unfold expire
  split
  · exact evolves_markAll x s
  · exact (evolves_teardownIfOpen x s).trans (evolves_modPort _ x _)

theorem evolves_hear (p : Port) (b : Byte) (s : State) : Evolves s (hear p b s) := by
  have h := (evolves_deliver p b s).finish
  unfold hear
  simp only
  split
  · refine h.trans ?_
    rcases expireOverdue_cases p (finish (deliver p b s)) with ⟨-, he⟩ | ⟨-, he⟩ <;> rw [he]
    · exact (evolves_expire p _).finish
    · exact .refl _
  · exact h

theorem evolves_breakPartial (p : Port) (s : State) : Evolves s (breakPartial p s) := by
  unfold breakPartial
  split <;> exact .of_records rfl rfl rfl rfl

theorem evolves_linkReset (s : State) : Evolves s (linkReset s) := by
  have h1 := (evolves_modPort s .u fun q => { q with rx := .hunt }).trans (evolves_teardownIfOpen .u _)
  exact h1.trans (.of_records rfl rfl rfl rfl)

theorem evolves_timed {due : State → Option Nat} {act : State → State} (hact : ∀ u, Evolves u (act u))
    {s t : State} (h : timed due act s = .next t) : Evolves s t := by
  rcases timed_cases due act s with ⟨n, -, -, hn⟩ | ⟨-, hn⟩ <;> rw [hn] at h <;> cases h
  · have h1 : Evolves s (advanceTo n (endS s)) := (evolves_endS s).trans (.of_records rfl rfl rfl rfl)
    exact (h1.trans (hact _)).finish
  · exact .refl s

/-! ### The sample port (01 R9, R12) -/

theorem evolves_sampleArrival (c : ChannelId) (v : Word16) (s : State) : Evolves s (sampleArrival c v s) := by
  unfold sampleArrival
  cases s.binding c with
  | none => exact .refl s
  | some r =>
    simp only
    cases hr : s.ring r with
    | none => exact .refl s
    | some g =>
      simp only
      split
      · rename_i hl
        have hring : (evictOverwritten r g s).ring r = some g := by
          unfold evictOverwritten
          split
          · exact (congrArg (Table.look · r) (evictAll_frame r _ s).1).trans hr
          · exact hr
        exact ((changes_arrival v hr hl).evolves ((work_evictOverwritten r g s).trans
          (work_writeSample v (congrArg (Option.map Ring.owner) hring)))).finish
      · exact .refl s

theorem evolves_clockSample (s : State) (t : SpPeriod) : Evolves s (clockSample s t) := by
  have word : ∀ l, Evolves s { s with spWord := l } := fun l => .of_records rfl rfl rfl rfl
  unfold clockSample
  split
  · exact word _
  · split
    · exact .refl s
    · simp only
      split
      · exact word _
      · exact (word []).trans (evolves_sampleArrival _ _ _)

/-! ### Every step -/

/-- A happening whose condition fails leaves the state (log 2). -/
theorem evolves_ite {p : Prop} [Decidable p] {s t u : State} (hu : Evolves s u)
    (h : (if p then Host.Outcome.next (finish u) else .next s) =
      Host.Outcome.next (φ := Fault) (ρ := Refusal) t) : Evolves s t := by
  split at h <;> cases h
  · exact hu.finish
  · exact .refl s

theorem evolves_segmentEnd {b : Job} {run : Run} {s : State} (hb : s.job run.job = some b) :
    Evolves s (segmentEnd b run s) := by
  refine .of_work (work_segmentEnd hb) fun hr => ?_
  have hb' : s.job (addProducts s b Config.segment run).job = some b := by
    rw [(addProducts_next s b Config.segment run).2, hb]
  unfold segmentEnd
  simp only
  split
  · exact referenceLaw_park hr hb'
  · exact hr.of_records rfl rfl rfl fun _ => rfl

theorem evolves_runHappening {s t : State} (h : execSegmentEnd s = .next t ∨ execRunEnd s = .next t) :
    Evolves s t := by
  unfold execSegmentEnd execRunEnd at h
  cases hf : inFlightRun s with
  | none => simp only [hf, or_self] at h; cases h; exact .refl s
  | some rb =>
    obtain ⟨run, b⟩ := rb
    have hb := (job_of_inFlightRun hf).2
    simp only [hf] at h
    rcases h with h | h
    · exact evolves_ite (evolves_segmentEnd hb) h
    · rw [← ite_not] at h
      exact evolves_ite ((plains_runEnd hb).changes.evolves (work_runEnd hb)) h

theorem evolves_resetDevice (baud : Level) (lines : Lines) (s : State) :
    Evolves s (resetDevice baud lines s) := by
  have hz : ∀ x, (resetDevice baud lines s).session x = Session.closed := fun x => session_resetDevice _ _ _ _
  refine ⟨fun x => ?_, fun hr => hr.move (.reset baud lines), fun _ _ x _ => ?_⟩
  · rw [hz]
    exact Session.Turn.closed.turns
  · constructor <;> simp [Session.closed]

theorem exec_evolves {i : Instr} {s t : State} (h : exec i s = .next t) : Evolves s t := by
  have run : ∀ {act x code}, BlockEvolves x act →
      Host.Outcome.next (φ := Fault) (ρ := Refusal) (runCommand x code act s) = .next t →
      Evolves s t := fun hact h => by
    cases h
    exact evolves_runCommand hact _ s
  cases i with
  | rstn baud lines => cases h; exact evolves_resetDevice baud lines s
  | sampleArrival periods => cases h; exact .foldl evolves_clockSample periods s
  | segmentEnd => exact evolves_runHappening (.inl h)
  | runEnd => exact evolves_runHappening (.inr h)
  | frameResolution p last =>
    simp only [exec, execFrameResolution] at h
    split at h <;> cases h
    · exact evolves_hear p last s
    · exact .refl s
  | frameLengthError p len => exact evolves_ite (evolves_deliver p len s) h
  | hello p last => exact evolves_ite (evolves_deliver p last s) h
  | badKind x => cases h; exact evolves_badKind x s
  | bye x => cases h; exact evolves_bye x s
  | status x => exact run ((statusBlock_changesNothing x).evolves x) h
  | ringCreate x => exact run ⟨ringCreate_works x, fun _ _ _ => changes_ringCreate⟩ h
  | ringDelete x => exact run ⟨ringDelete_works x, fun _ _ _ => changes_ringDelete⟩ h
  | ringFlush x => exact run ⟨ringFlush_works x, fun _ _ _ => changes_ringFlush⟩ h
  | ringWrite x => exact run ⟨ringWrite_works x, fun _ _ _ => changes_ringWrite⟩ h
  | ringRead x => exact run (ringRead_changesNothing.evolves x) h
  | ringQuery x => exact run (ringQuery_changesNothing.evolves x) h
  | setBegin x => exact run ⟨setBegin_works x, fun _ _ _ => changes_setBegin⟩ h
  | setData x => exact run ⟨setData_works x, fun _ _ _ => changes_setData⟩ h
  | setEnd x => exact run ⟨setEnd_works x, fun _ _ _ => changes_setEnd⟩ h
  | setAbort x => exact run ⟨setAbort_works x, fun _ _ _ => changes_setAbort⟩ h
  | setDelete x => exact run ⟨setDelete_works x, fun _ _ _ => changes_setDelete⟩ h
  | setQuery x => exact run (setQuery_changesNothing.evolves x) h
  | memQuery x => exact run (memQuery_changesNothing.evolves x) h
  | jobDefine x => exact run ⟨jobDefine_works x, fun _ _ _ => changes_jobDefine⟩ h
  | jobArm x => exact run ⟨jobArm_works x, fun _ _ _ => changes_jobArm⟩ h
  | jobStart x => exact run ⟨jobStart_works x, fun _ _ _ => changes_jobStart⟩ h
  | jobCancel x => exact run ⟨jobCancel_works x, fun _ _ _ => changes_jobCancel⟩ h
  | jobDelete x => exact run ⟨jobDelete_works x, fun _ _ _ => changes_jobDelete⟩ h
  | jobQuery x => exact run (jobQuery_changesNothing.evolves x) h
  | jobWatch x => exact run ⟨jobWatch_works x, fun _ _ _ => changes_jobWatch⟩ h
  | fetch x => exact run ⟨fetchBlock_works x, fun _ _ _ => changes_fetchBlock⟩ h
  | transmitArbiterChoice p =>
    cases p with
    | u => exact evolves_ite (.refl s) h
    | s => cases h; exact (evolves_startExchange s).finish
  | transmissionEnd p =>
    cases p with
    | u =>
      simp only [exec, execTransmissionEnd] at h
      split at h <;> cases h
      · rename_i f _
        have h1 : Evolves s { s with txU := none } := .of_records rfl rfl rfl rfl
        exact (h1.trans (evolves_noticeSent .u f _)).finish
      · exact .refl s
    | s => exact evolves_ite (evolves_endS s) h
  | noticeTimerExpiry x =>
    exact evolves_timed (due := fun s => (s.session x).timer) (evolves_expire x) h
  | framingError counted =>
    cases h
    have h1 : Evolves s { breakPartial .u s with urx := .atSpace (spaceSince counted s) s.ms } :=
      (evolves_breakPartial .u s).trans (.of_records rfl rfl rfl rfl)
    exact h1.finish
  | interByteGap => exact evolves_timed (act := dropPartial .u) (fun _ => .of_records rfl rfl rfl rfl) h
  | linkReset => exact evolves_timed evolves_linkReset h
  | deselect =>
    have h1 : Evolves s (deselect (endS s)) := (evolves_endS s).trans (.of_records rfl rfl rfl rfl)
    exact evolves_ite (h1.trans (evolves_breakPartial .s _)) h
  | byteDelivered p b => cases h; exact evolves_hear p b s

theorem step_evolves {s t : State} (h : step s = .next t) : Evolves s t := by
  unfold step at h
  split at h
  · rename_i c rest _
    have hpop : Evolves s { s with pending := rest } := .of_records rfl rfl rfl rfl
    exact hpop.trans (exec_evolves h)
  · unfold idle at h
    split at h
    · exact exec_evolves h
    · cases h
      exact .of_records rfl rfl rfl rfl

/-- Settles O54: only an OPEN session is given objects or list entries, and a teardown takes all of them. -/
theorem stepKeepsTheClosedLaw : Obligations.StepKeepsTheClosedLaw :=
  fun _ _ hr hc h => (step_evolves h).closed hr hc

/-- Settles O57: a step gives each session's record a chain of turns, and each turn keeps the numbers and the
timer. -/
theorem stepKeepsSequencesAndTimers : Obligations.StepKeepsSequencesAndTimers :=
  ⟨fun _ _ h =>
    ⟨fun hs x => ((step_evolves h).turns x).keeps Session.SequenceSound.turn (hs x),
      fun hs x => ((step_evolves h).turns x).keeps Session.NoticesSound.turn (hs x)⟩,
    fun _ _ hs h x => ((step_evolves h).turns x).keeps Session.TimerSound.turn (hs x)⟩

end Sys2Proof.Machine
end

section
/-! SUPPORT. BYE, sequence acceptance and HELLO (08 R133 to R141, R147). -/

namespace Sys2Proof.Machine

/-! ### BYE (08 R147) -/

/-- A reply to the command taken from the queue: one record of the session, and a frame placed (08 R145). -/
theorem reply_taken (x : Port) (f : Frame) (rest : List Command) (s : State) :
    reply x f (takeCommand x rest s) = place x f (executed x f rest s) := by
  cases x <;> rfl

theorem byeDecodes_of_nextIs {x : Port} {q : Byte} {rest : List Command} {s : State}
    (h : NextIs x q [0x11] rest s) : byeDecodes x s = true := by
  simp [byeDecodes, nextCommand_of_nextIs h]

theorem execute_bye {x : Port} {q : Byte} {rest : List Command} {s : State} (h : NextIs x q [0x11] rest s) :
    execute x 0x11 byeBlock s =
      some (place x (replyFrame q .ok 0x11 []) (executed x (replyFrame q .ok 0x11 []) rest s)) := by
  simp [execute, nextCommand_of_nextIs h, byeBlock, reply_taken]

/-- Settles O36: the BYE of the statement executes and decodes, so the teardown follows its reply. -/
theorem byeRepliesAndTearsDown : Obligations.ByeRepliesAndTearsDown := by
  intro s x q rest h
  have hbye : bye x s = finish (teardown x (place x (replyFrame q .ok 0x11 [])
      (executed x (replyFrame q .ok 0x11 []) rest s))) := by
    simp only [bye, execute_bye h, byeDecodes_of_nextIs h, if_true]
  exact congrArg Host.Outcome.next hbye

/-! ### Sequence acceptance (08 R136 to R141, Table 8-2) -/

theorem fifoRoom_iff (p : Port) (s : State) : fifoRoom p s = true ↔ (s.port p).fifo.length < 8 := by
  simp [fifoRoom, Config.replyFifoSize]

theorem placeIfRoom_eq (p : Port) (f : Frame) (s : State) :
    placeIfRoom p f s = if (s.port p).fifo.length < 8 then place p f s else s := by
  simp only [placeIfRoom, fifoRoom_iff]

section
variable {x : Port} {f : Frame} {s : State}

theorem arriveCommand_closed (hcode : codeOf f.payload ≠ codeHello) (h : (s.session x).isOpen = false) :
    arriveCommand x f s = placeIfRoom x (replyFrame f.seq .notOpen (codeOf f.payload) []) s := by
  rw [arriveCommand, if_neg hcode, h, if_neg nofun]

theorem arriveCommand_open (hcode : codeOf f.payload ≠ codeHello) (h : (s.session x).isOpen = true) :
    arriveCommand x f s = accept x f s := by
  rw [arriveCommand, if_neg hcode, if_pos h]

theorem accept_busy (hseq : f.seq = (s.session x).expected) (hq : 4 ≤ (s.session x).queue.length) :
    accept x f s = placeIfRoom x (replyFrame f.seq .busy (codeOf f.payload) []) s := by
  have hfull : ¬ (s.session x).queue.length < Config.commandQueueSize := Nat.not_lt.mpr hq
  simp only [accept, if_pos hseq, if_neg hfull]

theorem accept_expected (hseq : f.seq = (s.session x).expected) (hq : (s.session x).queue.length < 4) :
    accept x f s = s.putSession x { s.session x with
      queue := (s.session x).queue ++ [{ seq := f.seq, payload := f.payload }]
      expected := (s.session x).expected + 1 } := by
  have hroom : (s.session x).queue.length < Config.commandQueueSize := hq
  simp only [accept, if_pos hseq, if_pos hroom]

theorem accept_queued (hseq : f.seq ≠ (s.session x).expected)
    (hq : ∃ c ∈ (s.session x).queue, c.seq = f.seq) : accept x f s = s := by
  have hany : ((s.session x).queue.any fun c => c.seq = f.seq) = true := by simpa using hq
  simp only [accept, if_neg hseq, if_pos hany]

/-- Neither the number expected nor one in the queue: the reply cache decides. -/
theorem accept_past (hseq : f.seq ≠ (s.session x).expected)
    (hq : ∀ c ∈ (s.session x).queue, c.seq ≠ f.seq) :
    accept x f s = placeIfRoom x (((s.session x).cache.find? fun r => r.seq = f.seq).getD
      (replyFrame f.seq .sequence (codeOf f.payload) [(s.session x).expected])) s := by
  have hnone : ¬ ((s.session x).queue.any fun c => c.seq = f.seq) = true := by simpa using hq
  simp only [accept, if_neg hseq, if_neg hnone]
  cases (s.session x).cache.find? fun r => r.seq = f.seq <;> rfl

theorem accept_cached (hseq : f.seq ≠ (s.session x).expected)
    (hq : ∀ c ∈ (s.session x).queue, c.seq ≠ f.seq) {pre post : List Frame} {r : Frame}
    (hc : (s.session x).cache = pre ++ r :: post) (hpre : ∀ c ∈ pre, c.seq ≠ f.seq) (hr : r.seq = f.seq) :
    accept x f s = placeIfRoom x r s := by
  have hfind : ((s.session x).cache.find? fun r => r.seq = f.seq) = some r :=
    List.find?_eq_some_iff_append.mpr ⟨by simpa using hr, pre, post, hc, by simpa using hpre⟩
  rw [accept_past hseq hq, hfind, Option.getD_some]

theorem accept_unknown (hseq : f.seq ≠ (s.session x).expected)
    (hq : ∀ c ∈ (s.session x).queue, c.seq ≠ f.seq) (hc : ∀ r ∈ (s.session x).cache, r.seq ≠ f.seq) :
    accept x f s =
      placeIfRoom x (replyFrame f.seq .sequence (codeOf f.payload) [(s.session x).expected]) s := by
  have hfind : ((s.session x).cache.find? fun r => r.seq = f.seq) = none :=
    List.find?_eq_none.mpr (by simpa using hc)
  rw [accept_past hseq hq, hfind, Option.getD_none]

end

/-- Settles O41, row by row of Table 8-2. -/
theorem commandsAreAcceptedInSequence : Obligations.CommandsAreAcceptedInSequence := by
  intro s x f hcode
  simp only [← placeIfRoom_eq]
  refine ⟨arriveCommand_closed hcode, fun hopen => ?_⟩
  rw [arriveCommand_open hcode hopen]
  exact ⟨accept_busy, accept_expected, accept_queued,
    fun _ _ _ hseq hq hc hpre hr => accept_cached hseq hq hc hpre hr, accept_unknown⟩

/-! ### What a byte's other half leaves (10 R175) -/

/-- Sending and its end leave what the receivers hold and which sessions are OPEN. -/
structure Sends (s t : State) : Prop where
  rx : ∀ p, (t.port p).rx = (s.port p).rx
  isOpen : ∀ x, (t.session x).isOpen = (s.session x).isOpen

theorem Sends.refl (s : State) : Sends s s := ⟨fun _ => rfl, fun _ => rfl⟩

theorem Sends.trans {s t u : State} (h : Sends s t) (h' : Sends t u) : Sends s u :=
  ⟨fun p => (h'.rx p).trans (h.rx p), fun x => (h'.isOpen x).trans (h.isOpen x)⟩

theorem Sends.of_records {s t : State} (hp : t.ports = s.ports) (hs : t.sessions = s.sessions) :
    Sends s t :=
  ⟨fun p => congrArg (fun q => (Pair.look q p).rx) hp, fun x => congrArg (fun z => (Pair.look z x).isOpen) hs⟩

theorem Sends.modSession {s : State} {x : Port} {f : Session → Session}
    (h : (f (s.session x)).isOpen = (s.session x).isOpen) : Sends s (s.modSession x f) := by
  refine ⟨fun _ => rfl, fun y => ?_⟩
  rw [State.session_modSession]
  split
  · rename_i hy
    rw [hy, h]
  · rfl

theorem sends_sendEntry (x : Port) (e : Entry) (rest : List Entry) (s : State) :
    Sends s (sendEntry x e rest s) := by
  have hports := (plains_reportClass e s).changes.boundsKept.ports
  have hreport : Sends s (reportClass e s) :=
    ⟨fun p => congrArg (fun q => (Pair.look q p).rx) hports, (work_reportClass (P := fun _ => True) e s).isOpen⟩
  exact hreport.trans (.modSession rfl)

theorem sends_arbiter (p : Port) (s : State) : Sends s (arbiter p s).2 := by
  unfold arbiter
  cases (s.port p).fifo with
  | cons f rest =>
    refine ⟨fun q => ?_, fun _ => rfl⟩
    rw [State.port_modPort]
    split
    · rename_i hq
      rw [hq]
    · rfl
  | nil =>
    cases offer p s with
    | again n => exact .modSession (f := fun z => { z with inFlight := unmarkFirst z.inFlight }) rfl
    | fresh e rest => exact sends_sendEntry p e rest s
    | nothing => exact .refl s

theorem sends_askS (s : State) : Sends s (askS s) := by
  have h := sends_arbiter .s s
  unfold askS
  rcases ha : arbiter .s s with ⟨f, s'⟩
  rw [ha] at h
  cases f <;> exact h.trans (.of_records rfl rfl)

theorem sends_noticeSent (x : Port) (f : Frame) (s : State) : Sends s (noticeSent x f s) := by
  unfold noticeSent
  split
  · rw [setTimer, modSession_modSession]
    exact .modSession rfl
  · exact .refl s

theorem sends_endS (s : State) : Sends s (endS s) := by
  unfold endS
  cases s.txS.current with
  | none => exact .refl s
  | some o =>
    have h1 : Sends s { s with txS := { s.txS with current := none, filler := false } } := .of_records rfl rfl
    simp only
    split
    · exact h1.trans (sends_noticeSent _ _ _)
    · exact .refl s

theorem sends_startExchange (s : State) : Sends s (startExchange s) := by
  have h : Sends s (select (endS s)) := (sends_endS s).trans (.of_records rfl rfl)
  unfold startExchange
  simp only
  split
  · exact h.trans (sends_askS _)
  · exact h

/-- A delivered byte's exchange and its note leave the receivers and which sessions are OPEN. -/
theorem sends_byte (p : Port) (s : State) : Sends s (noteByteU p (exchange p s)) := by
  cases p with
  | u => exact .of_records rfl rfl
  | s =>
    show Sends s (exchangeS s)
    unfold exchangeS
    simp only
    split <;> exact (sends_startExchange s).trans (.of_records rfl rfl)

theorem isOpen_received (p x : Port) (s : State) :
    ((received p s).session x).isOpen = (s.session x).isOpen := (sends_byte p s).isOpen x

/-! ### HELLO (08 R133 to R135) -/

/-- The second check byte of a frame resolves it (10 R168, R169). -/
theorem deliver_check {p : Port} {s : State} {f : Frame} {lo : Byte} (last : Byte)
    (h : (s.port p).rx = .check f (some lo)) : deliver p last s =
      resolve p f (leNat [lo, last] = (crc16 f.covered).toNat) (received p s) := by
  have hrx := (sends_byte p s).rx p
  rw [h] at hrx
  simp only [deliver, hrx, Receiver.take]
  rfl

theorem validTimeout_iff (t : Nat) : validTimeout t = true ↔ t % 10 = 0 ∧ t ≤ 1000 := by
  simp only [validTimeout, Bool.or_eq_true, Bool.and_eq_true, decide_eq_true_eq]
  omega

section
variable {p : Port} {f : Frame} {lo last : Byte} {s : State}

/-- The last byte of a good HELLO frame is a HELLO at its arrival. -/
theorem exec_hello (h : (s.port p).rx = .check f (some lo))
    (hgood : lo.toNat + 256 * last.toNat = (crc16 f.covered).toNat) (hkind : f.kind = 0x01)
    (hcode : codeOf f.payload = 0x10) :
    exec (.hello p last) s = .next (finish (arriveHello p f (received p s))) := by
  have hcrc : leNat [lo, last] = (crc16 f.covered).toNat := (leNat_pair lo last).trans hgood
  have hcommand : f.kind = kindCommand := hkind
  have hhello : codeOf f.payload = codeHello := hcode
  have hcompletes : completesHello p last s = true := by
    simp [completesHello, completes, h, Receiver.take, hcrc, hcommand, hhello]
  have hdeliver : deliver p last s = arriveHello p f (received p s) := by
    rw [deliver_check last h]
    simp [resolve, arriveCommand, hcrc, hcommand, hhello]
  exact (if_pos hcompletes).trans (by rw [hdeliver])

end

section
variable {x : Port} {f : Frame} {s : State}

theorem takeHello_badLength (h : f.payload.length ≠ 4) :
    takeHello x f s = place x (replyFrame f.seq .badLength codeHello []) s := by
  unfold takeHello
  simp only
  split
  · rename_i he
    exact absurd (by rw [he]; rfl) h
  · rfl

/-- A HELLO of the length called for is refused by the first check that fails (08 R133). -/
theorem takeHello_badArg {c t0 t1 n : Byte} (h : f.payload = [c, t0, t1, n])
    (hbad : f.seq ≠ 0 ∨ ¬ (leNat [t0, t1] % 10 = 0 ∧ leNat [t0, t1] ≤ 1000) ∨ 1 < n.toNat) :
    takeHello x f s = place x (replyFrame f.seq .badArg codeHello []) s := by
  simp only [takeHello, h, validTimeout_iff]
  split
  · rfl
  · split
    · rfl
    · rename_i hseq hvalid
      have hn := (hbad.resolve_left hseq).resolve_left hvalid
      rw [if_pos hn]

/-- A HELLO that passes its checks opens the session (08 R134). -/
theorem takeHello_opens {c t0 t1 n : Byte} (h : f.payload = [c, t0, t1, n]) (hseq : f.seq = 0)
    (hvalid : leNat [t0, t1] % 10 = 0 ∧ leNat [t0, t1] ≤ 1000) (hn : n.toNat ≤ 1) :
    takeHello x f s =
      let timeout := if leNat [t0, t1] = 0 then 100 else leNat [t0, t1]
      place x (replyFrame 0 .ok codeHello (helloData x timeout (n = 1) (s.session x).isOpen))
        (openSession x timeout (n = 1) (teardownIfOpen x s)) := by
  simp only [takeHello, h, hseq, (validTimeout_iff _).mpr hvalid, Nat.not_lt.mpr hn]
  rfl

end

/-- Settles O42: the frame resolves as a HELLO at its arrival, and the checks are taken in their order. -/
theorem helloOpensTheSession : Obligations.HelloOpensTheSession := by
  intro s p f lo last hrx hgood hkind hcode
  have hexec := exec_hello hrx hgood hkind hcode
  have room : ((received p s).port p).fifo.length < 8 →
      exec (.hello p last) s = .next (finish (takeHello p f (received p s))) := fun h => by
    rw [hexec, arriveHello, if_pos ((fifoRoom_iff p _).mpr h)]
  refine ⟨fun hfull => ?_, fun hroom hlen => ?_, fun t0 t1 n hf hroom => ?_⟩
  · rw [hexec, arriveHello, if_neg fun h => hfull ((fifoRoom_iff p _).mp h)]
  · rw [room hroom, takeHello_badLength hlen]
    rfl
  · simp only [← leNat_pair]
    rw [room hroom]
    have refused := takeHello_badArg (x := p) (s := received p s) hf
    refine ⟨fun hseq => ?_, fun _ _ ht => ?_, fun _ _ _ hn => ?_, fun hseq h10 hmax hn => ?_⟩
    · rw [refused (.inl hseq)]
      rfl
    · rw [refused (.inr (.inl (by omega)))]
      rfl
    · rw [refused (.inr (.inr hn))]
      rfl
    · rw [takeHello_opens hf hseq ⟨h10, hmax⟩ hn, teardownIfOpen, isOpen_received]
      rfl

end Sys2Proof.Machine
end

section
/-! SUPPORT. What the deletion of a session's jobs takes, and what it leaves of everything else (02 R45, R46; 08
R149, step 2). -/

namespace Sys2Proof.Machine

/-! ### What no teardown touches -/

/-- The state beside rings, sets, jobs, the scheduler and the sessions: the ports, the memories' contents, the
transmitters and the clocks. -/
def State.surroundings (s : State) :=
  (s.ports, s.spWord, s.sampleMem, s.coefMem, s.pending, s.lastServed, s.txU, s.txS, s.baud, s.urx,
    s.lastByteAt, s.ms, s.epoch)

theorem surroundings_abandon (j : JobId) (b : Job) (s : State) :
    (abandon j b s).surroundings = s.surroundings := by
  unfold abandon
  cases b.state <;> rfl

theorem surroundings_endFire (j : JobId) (b : Job) (s : State) :
    (endFire j b s).surroundings = s.surroundings := by
  unfold endFire
  cases b.state with
  | held r => rfl
  | _ => exact surroundings_abandon j b s

theorem surroundings_freeRing (r : RingId) (s : State) : (freeRing r s).surroundings = s.surroundings := by
  unfold freeRing
  cases s.ring r with
  | none => rfl
  | some g => simp only [unbind]; cases g.source <;> rfl

theorem surroundings_unrefRing (r : RingId) (s : State) : (unrefRing r s).surroundings = s.surroundings := by
  unfold unrefRing
  cases s.ring r with
  | none => rfl
  | some g =>
    simp only
    split
    · exact surroundings_freeRing r _
    · rfl

theorem surroundings_freeSet (c : SetId) (s : State) : (freeSet c s).surroundings = s.surroundings := by
  unfold freeSet
  cases s.coef c <;> rfl

theorem surroundings_unrefSet (c : SetId) (s : State) : (unrefSet c s).surroundings = s.surroundings := by
  unfold unrefSet
  cases s.coef c with
  | none => rfl
  | some v =>
    simp only
    split
    · exact surroundings_freeSet c _
    · rfl

theorem surroundings_leaveRing (x : Port) (s : State) (r : RingId) :
    (leaveRing x s r).surroundings = s.surroundings := by
  unfold leaveRing
  cases s.ring r with
  | none => rfl
  | some g =>
    simp only
    split
    · split
      · exact surroundings_freeRing r s
      · rfl
    · rfl

theorem surroundings_leaveSet (x : Port) (s : State) (c : SetId) :
    (leaveSet x s c).surroundings = s.surroundings := by
  unfold leaveSet
  cases s.coef c with
  | none => rfl
  | some v =>
    cases hp : v.phase with
    | loading => simp only [hp]
    | ready o crc =>
      simp only [hp]
      split
      · split
        · exact surroundings_freeSet c s
        · rfl
      · rfl

theorem surroundings_foldl {α : Type} {f : State → α → State}
    (h : ∀ s a, (f s a).surroundings = s.surroundings) (l : List α) (s : State) :
    (l.foldl f s).surroundings = s.surroundings := by
  induction l generalizing s with
  | nil => rfl
  | cons a l ih => exact (ih _).trans (h s a)

/-! ### What work for one session leaves -/

/-- The other session, the jobs of other sessions and the surroundings are the same. -/
structure Apart (x : Port) (s t : State) : Prop where
  session : ∀ y, y ≠ x → t.session y = s.session y
  job : ∀ k, ownerOf k s ≠ some x → t.job k = s.job k
  surroundings : t.surroundings = s.surroundings

section
variable {x : Port}

theorem Apart.refl (s : State) : Apart x s s := ⟨fun _ _ => rfl, fun _ _ => rfl, rfl⟩

theorem Apart.trans {s t u : State} (h : Apart x s t) (h' : Apart x t u) : Apart x s u := by
  refine ⟨fun y hy => (h'.session y hy).trans (h.session y hy), fun k hk => ?_,
    h'.surroundings.trans h.surroundings⟩
  have hjob := h.job k hk
  have howner : ownerOf k t = ownerOf k s := by rw [ownerOf_eq, ownerOf_eq, hjob]
  exact (h'.job k (howner ▸ hk)).trans hjob

theorem Apart.of_records {s t : State} (hj : t.jobs = s.jobs) (hs : t.sessions = s.sessions)
    (h : t.surroundings = s.surroundings) : Apart x s t :=
  ⟨fun y _ => congrArg (Pair.look · y) hs, fun k _ => congrArg (Table.look · k) hj, h⟩

theorem Apart.modSession (s : State) (f : Session → Session) : Apart x s (s.modSession x f) :=
  ⟨fun y hy => by simp [hy], fun _ _ => rfl, rfl⟩

theorem Apart.putJob {s : State} {j : JobId} (h : ownerOf j s = some x) (v : Option Job) :
    Apart x s (s.putJob j v) :=
  ⟨fun _ _ => rfl, fun k hk => by rw [State.job_putJob, if_neg (by rintro rfl; exact hk h)], rfl⟩

theorem apart_unrefRing (r : RingId) (s : State) : Apart x s (unrefRing r s) :=
  .of_records (unrefRing_only r s).jobs (unrefRing_only r s).sessions (surroundings_unrefRing r s)

theorem apart_unrefSet (c : SetId) (s : State) : Apart x s (unrefSet c s) :=
  .of_records (unrefSet_only c s).jobs (unrefSet_only c s).sessions (surroundings_unrefSet c s)

theorem apart_freeSet (c : SetId) (s : State) : Apart x s (freeSet c s) :=
  .of_records (freeSet_only c s).jobs (freeSet_only c s).sessions (surroundings_freeSet c s)

theorem apart_closeLoad (s : State) : Apart x s (closeLoad x s) := by
  unfold closeLoad
  cases (s.session x).load with
  | none => exact .refl s
  | some l => exact (apart_freeSet l.set s).trans (.modSession _ _)

/-- The held order list of a session names each of its HELD jobs once (04 R75, R77). -/
def HeldListed (x : Port) (s : State) : Prop :=
  (s.session x).heldOrder.Nodup ∧
    ∀ j ∈ (s.session x).heldOrder, ∃ b r, s.job j = some b ∧ b.owner = x ∧ b.state = .held r

theorem HeldLaw.heldListed {s : State} (h : HeldLaw s) (x : Port) : HeldListed x s :=
  ⟨h.nodup x, fun j hj => by
    obtain ⟨b, r, hb, ho, hr⟩ := (h.listed x j).mp hj
    exact ⟨b, r, hb, ho, hr⟩⟩

theorem HeldListed.endFire {s : State} {j : JobId} {b : Job} (h : HeldLaw s) (hb : s.job j = some b) :
    HeldListed x (endFire j b s) := by
  obtain ⟨hnodup, hheld⟩ := h.heldListed x
  refine ⟨?_, fun k hk => ?_⟩
  · rw [heldOrder_endFire h hb]
    exact hnodup.filter _
  · rw [heldOrder_endFire h hb] at hk
    obtain ⟨c, r, hc, hrest⟩ := hheld k (List.mem_filter.mp hk).1
    exact ⟨c, r, (congrArg (Table.look · k) (jobs_endFire j b s)).trans hc, hrest⟩

theorem apart_heldMove {s : State} (h : HeldListed x s) : Apart x s (heldMove x s) := by
  obtain ⟨hnodup, hheld⟩ := h
  obtain ⟨jobs, heq, hjobs⟩ := heldMoves_eq x _ _ s hnodup rfl rfl fun j hj => by
    obtain ⟨b, r, hb, -, hr⟩ := hheld j hj
    exact ⟨b, r, hb, hr⟩
  have moved : Apart x s { s with jobs := jobs } := by
    refine ⟨fun _ _ => rfl, fun k hk => hjobs.stay k fun hmem => hk ?_, rfl⟩
    obtain ⟨b, r, hb, ho, -⟩ := hheld k (List.mem_of_mem_take hmem)
    rw [ownerOf_eq, hb, Option.map_some, ho]
  rw [heldMove, heq]
  exact moved.trans (.modSession _ _)

theorem apart_purged (j : JobId) {s : State} (h : HeldListed x s) : Apart x s (purged x j s) := by
  have h1 : Apart x s (s.modSession x fun z => { z with
    results := (s.session x).results.filter fun r => r.job ≠ j }) := .modSession _ _
  have listed : HeldListed x (s.modSession x fun z => { z with
      results := (s.session x).results.filter fun r => r.job ≠ j }) := by
    simpa [HeldListed] using h
  unfold purged
  simp only
  split
  · exact h1
  · exact h1.trans (apart_heldMove listed)

theorem apart_endFire {s : State} (j : JobId) {b : Job} (ho : b.owner = x) : Apart x s (endFire j b s) := by
  subst ho
  refine ⟨fun y hy => ?_, fun k _ => congrArg (Table.look · k) (jobs_endFire j b s),
    surroundings_endFire j b s⟩
  unfold endFire
  cases b.state with
  | held r => simp [hy]
  | _ => exact congrArg (Pair.look · y) (sessions_abandon j b s)

theorem apart_deleteJob {s : State} {j : JobId} {b : Job} (h : HeldLaw s) (hb : s.job j = some b)
    (ho : b.owner = x) : Apart x s (deleteJob j s) := by
  subst ho
  have hpurged := (apart_endFire j rfl).trans (apart_purged j (HeldListed.endFire (x := b.owner) h hb))
  have hlist := hpurged.trans (.modSession _ fun z => { z with
    pendingList := z.pendingList.filter fun e => !(e.names j) && !(z.results.isEmpty && e.isResults) })
  have hrefs := (hlist.trans (apart_unrefRing b.ring _)).trans (apart_unrefSet b.set _)
  have gone : Apart b.owner s (deleteJob j s) := by
    rw [deleteJob_eq hb]
    refine ⟨hrefs.session, fun k hk => ?_, hrefs.surroundings⟩
    have hkj : k ≠ j := fun e => hk (by rw [e, ownerOf_eq, hb, Option.map_some])
    rw [State.job_putJob, if_neg hkj]
    exact hrefs.job k hk
  exact gone

end

/-! ### What a fall of reference counts makes of rings and sets (01 R7, 06 R107) -/

/-- A ring's record of which jobs have gone: its reference count differs, and an orphan may be freed. -/
inductive RingThinned : Option Ring → Option Ring → Prop where
  | absent : RingThinned none none
  | freed {g : Ring} (h : g.orphaned = true) : RingThinned (some g) none
  | kept (g : Ring) (n : Nat) : RingThinned (some g) (some { g with refs := n })

theorem RingThinned.refl (o : Option Ring) : RingThinned o o := by
  cases o with
  | none => exact .absent
  | some g => exact .kept g g.refs

theorem RingThinned.trans {o p q : Option Ring} (h : RingThinned o p) (h' : RingThinned p q) :
    RingThinned o q := by
  cases h with
  | absent => exact h'
  | freed h => cases h'; exact .freed h
  | kept g n =>
    cases h' with
    | freed h => exact .freed h
    | kept _ m => exact .kept g m

theorem thinned_unrefRing (r k : RingId) (s : State) : RingThinned (s.ring k) ((unrefRing r s).ring k) := by
  cases hr : s.ring r with
  | none =>
    have same : unrefRing r s = s := by simp only [unrefRing, hr]
    rw [same]
    exact .refl _
  | some g =>
    rw [ring_unrefRing hr]
    split
    · rename_i hk
      rw [hk, hr, Ring.unref]
      split
      · rename_i h
        exact .freed h.1
      · exact .kept g _
    · exact .refl _

/-- A set's record of which jobs have gone, with the load context of session `x` closed: its reference count
differs, and an orphan or a set of the session may be freed. -/
inductive SetThinned (x : Port) : Option CoefSet → Option CoefSet → Prop where
  | empty : SetThinned x none none
  | freed {v : CoefSet} (h : v.isOrphaned = true ∨ v.owner = some x) : SetThinned x (some v) none
  | kept (v : CoefSet) (n : Nat) : SetThinned x (some v) (some { v with refs := n })

section
variable {x : Port}

theorem SetThinned.refl (o : Option CoefSet) : SetThinned x o o := by
  cases o with
  | none => exact .empty
  | some v => exact .kept v v.refs

theorem SetThinned.trans {o p q : Option CoefSet} (h : SetThinned x o p) (h' : SetThinned x p q) :
    SetThinned x o q := by
  cases h with
  | empty => exact h'
  | freed h => cases h'; exact .freed h
  | kept v n =>
    cases h' with
    | freed h => exact .freed h
    | kept _ m => exact .kept v m

theorem thinned_unrefSet (c k : SetId) (s : State) : SetThinned x (s.coef k) ((unrefSet c s).coef k) := by
  cases hc : s.coef c with
  | none =>
    have same : unrefSet c s = s := by simp only [unrefSet, hc]
    rw [same]
    exact .refl _
  | some v =>
    rw [coef_unrefSet hc]
    split
    · rename_i hk
      rw [hk, hc, CoefSet.unref]
      split
      · rename_i h
        exact .freed (.inl h.1)
      · exact .kept v _
    · exact .refl _

end

/-! ### The jobs of a session go (08 R149, steps 1 and 2) -/

/-- The job is session `x`'s, and one of those in the list. -/
def gone (x : Port) (l : List JobId) (s : State) (k : JobId) : Bool := k ∈ l ∧ ownerOf k s = some x

/-- The session's jobs in a list have gone, with their parts in the queue and the PSU and their references, and
perhaps its load context; nothing else has changed. -/
structure Torn (x : Port) (l : List JobId) (s t : State) : Prop where
  apart : Apart x s t
  owner : ∀ k, ownerOf k t = if gone x l s k then none else ownerOf k s
  cls : ∀ c, t.cls c = (s.cls c).filter fun k => !gone x l s k
  psu : t.psu = s.psu.filter fun run => !gone x l s run.job
  ring : ∀ r, RingThinned (s.ring r) (t.ring r)
  coef : ∀ c, SetThinned x (s.coef c) (t.coef c)

section
variable {x : Port}

theorem gone_nil (s : State) (k : JobId) : gone x [] s k = false := by simp [gone]

/-- What goes in two parts. -/
theorem Torn.gone_append {l m : List JobId} {s t : State} (h : Torn x l s t) (k : JobId) :
    gone x (l ++ m) s k = (gone x l s k || gone x m t k) := by
  have hk := h.owner k
  cases hg : gone x l s k with
  | true =>
    obtain ⟨hmem, howner⟩ := of_decide_eq_true hg
    simp [gone, hmem, howner]
  | false =>
    rw [hg, if_neg nofun] at hk
    have hn := of_decide_eq_false hg
    rw [not_and] at hn
    by_cases ho : ownerOf k s = some x
    · have hmem : k ∉ l := fun hmem => hn hmem ho
      simp [gone, hk, ho, hmem]
    · simp [gone, hk, ho]

/-- No job goes. -/
theorem Torn.nothing {l : List JobId} {s t : State} (hn : ∀ k, gone x l s k = false) (ha : Apart x s t)
    (hj : t.jobs = s.jobs) (hready : t.ready = s.ready) (hpsu : t.psu = s.psu)
    (hring : ∀ r, RingThinned (s.ring r) (t.ring r)) (hcoef : ∀ c, SetThinned x (s.coef c) (t.coef c)) :
    Torn x l s t := by
  refine ⟨ha, fun k => ?_, fun c => ?_, ?_, hring, hcoef⟩
  · rw [hn, if_neg nofun, ownerOf_eq, ownerOf_eq]
    exact congrArg (fun jobs => (Table.look jobs k).map Job.owner) hj
  · simp only [hn, Bool.not_false, List.filter_true]
    exact congrArg (Table.look · c) hready
  · rw [hpsu]
    cases s.psu <;> simp [hn, Option.filter]

theorem Torn.refl {l : List JobId} {s : State} (hn : ∀ k, gone x l s k = false) : Torn x l s s :=
  .nothing hn (.refl s) rfl rfl rfl (fun _ => .refl _) fun _ => .refl _

theorem Torn.trans {l m : List JobId} {s t u : State} (h : Torn x l s t) (h' : Torn x m t u) :
    Torn x (l ++ m) s u := by
  refine ⟨h.apart.trans h'.apart, fun k => ?_, fun c => ?_, ?_, fun r => (h.ring r).trans (h'.ring r),
    fun c => (h.coef c).trans (h'.coef c)⟩
  · rw [h'.owner, h.owner, h.gone_append]
    cases gone x l s k <;> simp
  · rw [h'.cls, h.cls, List.filter_filter]
    refine List.filter_congr fun k _ => ?_
    rw [h.gone_append, Bool.not_or, Bool.and_comm]
  · rw [h'.psu, h.psu]
    cases s.psu with
    | none => rfl
    | some run =>
      have hg := h.gone_append (m := m) run.job
      cases h1 : gone x l s run.job <;> rw [h1] at hg <;> simp [Option.filter, h1, hg]

theorem torn_closeLoad {s : State} (h : ReferenceLaw s) : Torn x [] s (closeLoad x s) := by
  cases hl : (s.session x).load with
  | none =>
    have same : closeLoad x s = s := by simp only [closeLoad, hl]
    rw [same]
    exact .refl (gone_nil s)
  | some l =>
    have freed : closeLoad x s = putLoad x none (freeSet l.set s) := by simp only [closeLoad, hl, putLoad]
    have hsched := same_closeLoad x s
    refine .nothing (gone_nil s) (apart_closeLoad s) ?_ hsched.ready hsched.psu (fun r => ?_) fun c => ?_ <;>
      rw [freed, putLoad]
    · exact (freeSet_only l.set s).jobs
    · rw [State.ring_modSession, (freeSet_only l.set s).ring]
      exact .refl _
    · rw [State.coef_modSession, coef_freeSet]
      split
      · rename_i hc
        obtain ⟨v, hv, -, ho, -⟩ := h.loads x l hl
        rw [hc, hv]
        exact .freed (.inr ho)
      · exact .refl _

/-- The state of a deletion once the job has left its parts, the results and the pending list (02 R45). -/
def unlisted (j : JobId) (b : Job) (s : State) : State :=
  (purge b.owner j (endFire j b s)).modSession b.owner fun z => { z with
    pendingList := withdrawJob j z.pendingList }

theorem deleteJob_of_job {j : JobId} {b : Job} {s : State} (hb : s.job j = some b) :
    deleteJob j s = (unrefSet b.set (unrefRing b.ring (unlisted j b s))).putJob j none := by
  simp only [deleteJob, hb, unlisted]

theorem same_unlisted (j : JobId) (b : Job) (s : State) : SameSchedule (abandon j b s)
    (unrefSet b.set (unrefRing b.ring (unlisted j b s))) := by
  have h1 := (same_endFire j b s).trans (same_purge b.owner j _)
  have h2 : SameSchedule _ (unlisted j b s) := h1.trans (.of_jobs rfl rfl rfl)
  exact (h2.trans (same_unrefRing _ _)).trans (same_unrefSet _ _)

theorem torn_deleteJob {s : State} {j : JobId} {b : Job} (hq : QueueLaw s) (hh : HeldLaw s)
    (hb : s.job j = some b) (ho : b.owner = x) : Torn x [j] s (deleteJob j s) := by
  have hj : ownerOf j s = some x := by rw [ownerOf_eq, hb, Option.map_some, ho]
  have hgone : ∀ k, gone x [j] s k = decide (k = j) := fun k => by
    by_cases hk : k = j <;> simp [gone, hk, hj]
  have hplain : Plains s (unlisted j b s) := plains_deleteJob_before j b s
  have hsched := same_unlisted j b s
  refine ⟨apart_deleteJob hh hb ho, fun k => ?_, fun c => ?_, ?_, fun r => ?_, fun c => ?_⟩
  · simp only [hgone, decide_eq_true_eq]
    exact ownerOf_deleteJob j k s
  · rw [deleteJob_of_job hb, State.cls_putJob, hsched.cls, cls_abandon hq hb]
    exact List.filter_congr fun k _ => by simp [hgone]
  · rw [deleteJob_of_job hb, State.psu_putJob, hsched.psu, psu_abandon hq hb]
    simp [hgone]
  · rw [deleteJob_of_job hb, State.ring_putJob, (unrefSet_only _ _).ring, ← hplain.ring]
    exact thinned_unrefRing _ _ _
  · have hcoef : (unrefRing b.ring (unlisted j b s)).coef c = s.coef c :=
      ((unrefRing_only _ _).coef c).trans (congrArg (Table.look · c) hplain.kept.sets)
    rw [deleteJob_of_job hb, State.coef_putJob, ← hcoef]
    exact thinned_unrefSet _ _ _

theorem torn_deleteOwned {s : State} (hq : QueueLaw s) (hh : HeldLaw s) (j : JobId) :
    Torn x [j] s (deleteOwned x s j) := by
  have others : ownerOf j s ≠ some x → Torn x [j] s s := fun h => by
    refine .refl fun k => decide_eq_false ?_
    rintro ⟨hk, ho⟩
    exact h (List.mem_singleton.mp hk ▸ ho)
  unfold deleteOwned
  cases hj : s.job j with
  | none => exact others (by simp [ownerOf_eq, hj])
  | some b =>
    simp only
    split
    · exact torn_deleteJob hq hh hj ‹_›
    · exact others (by simpa [ownerOf_eq, hj])

theorem torn_deleteAll (l : List JobId) {s : State} (hq : QueueLaw s) (hh : HeldLaw s) :
    Torn x l s (l.foldl (deleteOwned x) s) := by
  induction l generalizing s with
  | nil => exact .refl (gone_nil s)
  | cons j l ih =>
    exact (torn_deleteOwned hq hh j).trans
      (ih (keepsQueue_deleteOwned x s j hq) (keepsHeld_deleteOwned x s j hh))

/-- The session's jobs are gone (08 R149, steps 1 and 2). -/
theorem torn_jobsGone {s : State} (hr : ReferenceLaw s) (hq : QueueLaw s) (hh : HeldLaw s) :
    Torn x allJobs s (jobsGone x s) :=
  (torn_closeLoad hr).trans (torn_deleteAll allJobs ((same_closeLoad x s).keeps hq)
    ((claims_closeLoad x s).keeps hh))

end

end Sys2Proof.Machine
end

section
/-! SUPPORT. The teardown as a whole: what is left of jobs, scheduler, rings and sets (08 R149, R150; 01 R23, 06
R118). -/

namespace Sys2Proof.Machine

/-! ### Two sessions -/

theorem otherPort_ne (x : Port) : otherPort x ≠ x := by cases x <;> nofun

/-- Of two sessions, what is not the one is the other. -/
theorem eq_otherPort_of_ne {x y : Port} (h : y ≠ x) : y = otherPort x := by
  cases x with
  | u => cases y with | u => exact absurd rfl h | s => rfl
  | s => cases y with | u => rfl | s => exact absurd rfl h

/-- An owner that is neither of the two sessions is none. -/
theorem owner_eq_none {x : Port} {o : Option Port} (hx : o ≠ some x) (hy : o ≠ some (otherPort x)) :
    o = none := by
  cases o with
  | none => rfl
  | some z => exact absurd (congrArg some (eq_otherPort_of_ne fun e => hx (congrArg some e))) hy

/-! ### What the last steps leave (08 R149, steps 3 to 6) -/

theorem surroundings_putSession (x : Port) (z : Session) (s : State) :
    (s.putSession x z).surroundings = s.surroundings := rfl

theorem surroundings_teardown_of_jobsGone (x : Port) (s : State) :
    (teardown x s).surroundings = (jobsGone x s).surroundings := by
  rw [teardown_eq, surroundings_putSession, objectsGone, surroundings_foldl (surroundings_leaveSet x),
    surroundings_foldl (surroundings_leaveRing x)]

theorem same_objectsGone (x : Port) (s : State) : SameSchedule (jobsGone x s) (objectsGone x s) :=
  (SameSchedule.foldl (same_leaveRing x) allRings _).trans (.foldl (same_leaveSet x) allSets _)

theorem cls_teardown (x : Port) (s : State) (c : ClassId) : (teardown x s).cls c = (jobsGone x s).cls c := by
  rw [teardown_eq, State.cls_putSession]
  exact (same_objectsGone x s).cls c

theorem psu_teardown (x : Port) (s : State) : (teardown x s).psu = (jobsGone x s).psu := by
  rw [teardown_eq, State.psu_putSession]
  exact (same_objectsGone x s).psu

theorem ownedBy_eq_ownerOf (x : Port) (s : State) (j : JobId) :
    ownedBy x s j = decide (ownerOf j s = some x) := by
  rw [ownerOf_eq]
  unfold ownedBy
  cases s.job j <;> simp

theorem gone_allJobs (x : Port) (s : State) (j : JobId) : gone x allJobs s j = ownedBy x s j := by
  simp [gone, mem_allJobs, ownedBy_eq_ownerOf]

/-- What is counted is there. -/
theorem exists_of_jobCount_pos {f : Job → Bool} {s : State} (h : 0 < jobCount f s) :
    ∃ j b, s.job j = some b ∧ f b = true := by
  obtain ⟨j, -, hj⟩ := List.countP_pos_iff.mp h
  obtain ⟨b, hb, hf⟩ := (Option.any_eq_true _ _).mp hj
  exact ⟨j, b, hb, hf⟩

theorem ringJobsOf_eq (y : Port) (r : RingId) (s : State) :
    ringJobsOf y r s = jobCount (fun b => b.owner = y && b.ring = r) s := by
  rw [ringJobsOf, jobCount, List.countP_eq_length_filter]
  refine congrArg List.length (List.filter_congr fun j _ => ?_)
  cases s.job j <;> rfl

theorem setJobsOf_eq (y : Port) (c : SetId) (s : State) :
    setJobsOf y c s = jobCount (fun b => b.owner = y && b.set = c) s := by
  rw [setJobsOf, jobCount, List.countP_eq_length_filter]
  refine congrArg List.length (List.filter_congr fun j _ => ?_)
  cases s.job j <;> rfl

section
variable {x : Port} {s : State} (hr : ReferenceLaw s) (hq : QueueLaw s) (hh : HeldLaw s)
include hr hq hh

theorem surroundings_teardown : (teardown x s).surroundings = s.surroundings :=
  (surroundings_teardown_of_jobsGone x s).trans (torn_jobsGone hr hq hh).apart.surroundings

/-- Exactly the session's jobs are gone. -/
theorem job_of_teardown (j : JobId) :
    (teardown x s).job j = if ownedBy x s j then none else s.job j := by
  have htorn := torn_jobsGone (x := x) hr hq hh
  have howner := htorn.owner j
  rw [gone_allJobs] at howner
  rw [job_teardown]
  split
  · rename_i h
    rw [if_pos h, ownerOf_eq, Option.map_eq_none_iff] at howner
    exact howner
  · rename_i h
    exact htorn.apart.job j (by simpa [ownedBy_eq_ownerOf] using h)

theorem cls_of_teardown (c : ClassId) :
    (teardown x s).cls c = (s.cls c).filter fun j => !ownedBy x s j := by
  rw [cls_teardown, (torn_jobsGone hr hq hh).cls]
  exact List.filter_congr fun j _ => by rw [gone_allJobs]

theorem psu_of_teardown : (teardown x s).psu =
    if (match s.psu with | some run => ownedBy x s run.job | none => false) then none else s.psu := by
  rw [psu_teardown, (torn_jobsGone hr hq hh).psu]
  cases s.psu with
  | none => rfl
  | some run =>
    cases h : ownedBy x s run.job <;> simp [Option.filter, gone_allJobs, h]

/-- The jobs left are the other session's. -/
theorem jobCount_teardown (f : Job → Bool) : jobCount f (teardown x s) =
    jobCount (fun b => b.owner = otherPort x && f b) s := by
  refine congrArg (List.countP · allJobs) (funext fun j => ?_)
  rw [job_of_teardown hr hq hh]
  cases hj : s.job j with
  | none => rw [ite_self]; rfl
  | some b =>
    rw [ownedBy_eq hj]
    by_cases ho : b.owner = x
    · simp [ho, (otherPort_ne x).symm]
    · simp [eq_otherPort_of_ne ho, otherPort_ne]

theorem ringJobs_teardown (r : RingId) : ringJobs r (teardown x s) = ringJobsOf (otherPort x) r s := by
  rw [ringJobs_eq, jobCount_teardown hr hq hh, ringJobsOf_eq]

theorem setJobs_teardown (c : SetId) : setJobs c (teardown x s) = setJobsOf (otherPort x) c s := by
  rw [setJobs_eq, jobCount_teardown hr hq hh, setJobsOf_eq]

/-! ### Rings (01 R23) -/

theorem ring_teardown_absent {r : RingId} (hg : s.ring r = none) : (teardown x s).ring r = none := by
  have hthin := (torn_jobsGone (x := x) hr hq hh).ring r
  rw [hg] at hthin
  rw [ring_teardown]
  generalize (jobsGone x s).ring r = o at hthin
  cases hthin
  rfl

/-- A ring that is left has the count of the jobs left, and has been orphaned if it was the session's. -/
theorem ring_teardown_shape {r : RingId} {g h : Ring} (hg : s.ring r = some g)
    (ht : (teardown x s).ring r = some h) :
    (g.owner = some x ∧
      h = { g with owner := none, orphaned := true, refs := ringJobsOf (otherPort x) r s }) ∨
    (g.owner ≠ some x ∧ h = { g with refs := ringJobsOf (otherPort x) r s }) := by
  have hrefs := (referenceLaw_teardown x hr).ringRefs r h ht
  rw [ringJobs_teardown hr hq hh] at hrefs
  have hthin := (torn_jobsGone (x := x) hr hq hh).ring r
  rw [hg] at hthin
  rw [ring_teardown] at ht
  generalize (jobsGone x s).ring r = o at hthin ht
  cases hthin with
  | freed ho => cases ht
  | kept _ n =>
    rw [Option.bind_some] at ht
    by_cases ho : g.owner = some x
    · rw [Ring.left_of_owner (g := { g with refs := n }) ho] at ht
      split at ht <;> cases ht
      exact .inl ⟨ho, by rw [← hrefs]⟩
    · rw [Ring.left_of_ne (g := { g with refs := n }) ho] at ht
      cases ht
      exact .inr ⟨ho, by rw [← hrefs]⟩

/-- The rings of the other session, and those that its jobs name, are left. -/
theorem ring_teardown_exists {r : RingId} {g : Ring} (hg : s.ring r = some g)
    (h : g.owner = some (otherPort x) ∨ 0 < ringJobsOf (otherPort x) r s) :
    ∃ g', (teardown x s).ring r = some g' := by
  rcases h with ho | hpos
  · have hthin := (torn_jobsGone (x := x) hr hq hh).ring r
    have hne : g.owner ≠ some x := fun e => otherPort_ne x (Option.some.inj (ho.symm.trans e))
    rw [hg] at hthin
    rw [ring_teardown]
    generalize (jobsGone x s).ring r = o at hthin
    cases hthin with
    | freed horphan => exact absurd (ho.symm.trans ((hr.ringOrphan r g hg).1.mp horphan)) nofun
    | kept _ n => exact ⟨_, Ring.left_of_ne hne⟩
  · rw [← ringJobs_teardown hr hq hh, ringJobs_eq] at hpos
    obtain ⟨j, b, hb, hring⟩ := exists_of_jobCount_pos hpos
    rw [← of_decide_eq_true hring]
    exact (referenceLaw_teardown x hr).ringNamed j b hb

theorem ring_of_teardown {r : RingId} {g : Ring} (hg : s.ring r = some g) :
    (g.owner = some x → 0 < ringJobsOf (otherPort x) r s → (teardown x s).ring r =
      some { g with owner := none, orphaned := true, refs := ringJobsOf (otherPort x) r s }) ∧
    (g.owner ≠ some (otherPort x) → ringJobsOf (otherPort x) r s = 0 → (teardown x s).ring r = none) ∧
    (g.owner = some (otherPort x) ∨ (g.owner = none ∧ 0 < ringJobsOf (otherPort x) r s) →
      (teardown x s).ring r = some { g with refs := ringJobsOf (otherPort x) r s }) := by
  refine ⟨fun ho hpos => ?_, fun hy h0 => ?_, fun h => ?_⟩
  · obtain ⟨h, ht⟩ := ring_teardown_exists hr hq hh hg (.inr hpos)
    obtain ⟨-, rfl⟩ | ⟨hne, -⟩ := ring_teardown_shape hr hq hh hg ht
    · exact ht
    · exact absurd ho hne
  · cases ht : (teardown x s).ring r with
    | none => rfl
    | some h =>
      have horphan := (referenceLaw_teardown x hr).ringOrphan r h ht
      obtain ⟨-, rfl⟩ | ⟨hne, rfl⟩ := ring_teardown_shape hr hq hh hg ht
      · exact absurd h0 (horphan.2 rfl).ne'
      · exact absurd h0 (horphan.2 (horphan.1.mpr (owner_eq_none hne hy))).ne'
  · obtain ⟨h', ht⟩ := ring_teardown_exists hr hq hh hg (h.imp_right And.right)
    obtain ⟨ho, -⟩ | ⟨-, rfl⟩ := ring_teardown_shape hr hq hh hg ht
    · rcases h with hy | ⟨hnone, -⟩
      · exact absurd (Option.some.inj (hy.symm.trans ho)) (otherPort_ne x)
      · exact absurd (hnone.symm.trans ho) nofun
    · exact ht

/-! ### Sets (06 R118) -/

theorem coef_teardown_empty {c : SetId} (hv : s.coef c = none) : (teardown x s).coef c = none := by
  have hthin := (torn_jobsGone (x := x) hr hq hh).coef c
  rw [hv] at hthin
  rw [coef_teardown]
  generalize (jobsGone x s).coef c = o at hthin
  cases hthin
  rfl

/-- A set that is left has the count of the jobs left, and has been orphaned if it was the session's; a LOADING
one of the session is not left. -/
theorem coef_teardown_shape {c : SetId} {v w : CoefSet} (hv : s.coef c = some v)
    (ht : (teardown x s).coef c = some w) :
    (∃ o crc, v.owner = some x ∧ v.phase = .ready o crc ∧ w =
      { v with owner := none, phase := .ready true crc, refs := setJobsOf (otherPort x) c s }) ∨
    (v.owner ≠ some x ∧ w = { v with refs := setJobsOf (otherPort x) c s }) := by
  have hrefs := (referenceLaw_teardown x hr).setRefs c w ht
  have hne := owner_coef_teardown hr ht
  rw [setJobs_teardown hr hq hh] at hrefs
  have hthin := (torn_jobsGone (x := x) hr hq hh).coef c
  rw [hv] at hthin
  rw [coef_teardown] at ht
  generalize (jobsGone x s).coef c = o at hthin ht
  cases hthin with
  | freed ho => cases ht
  | kept _ n =>
    rw [Option.bind_some] at ht
    by_cases ho : v.owner = some x
    · cases hp : v.phase with
      | loading =>
        rw [CoefSet.left_of_loading (v := { v with refs := n }) hp] at ht
        cases ht
        exact absurd ho hne
      | ready o crc =>
        rw [CoefSet.left_of_ready (v := { v with refs := n }) hp ho] at ht
        split at ht <;> cases ht
        exact .inl ⟨o, crc, ho, rfl, by rw [← hrefs]⟩
    · rw [CoefSet.left_of_ne (v := { v with refs := n }) ho] at ht
      cases ht
      exact .inr ⟨ho, by rw [← hrefs]⟩

/-- The sets of the other session, and those that its jobs name, are left. -/
theorem coef_teardown_exists {c : SetId} {v : CoefSet} (hv : s.coef c = some v)
    (h : v.owner = some (otherPort x) ∨ 0 < setJobsOf (otherPort x) c s) :
    ∃ w, (teardown x s).coef c = some w := by
  rcases h with ho | hpos
  · have hthin := (torn_jobsGone (x := x) hr hq hh).coef c
    have hne : v.owner ≠ some x := fun e => otherPort_ne x (Option.some.inj (ho.symm.trans e))
    rw [hv] at hthin
    rw [coef_teardown]
    generalize (jobsGone x s).coef c = o at hthin
    cases hthin with
    | freed hfreed =>
      have horphan := hfreed.resolve_right hne
      exact absurd (ho.symm.trans ((hr.setOrphan c v hv).1.mp horphan)) nofun
    | kept _ n => exact ⟨_, CoefSet.left_of_ne hne⟩
  · rw [← setJobs_teardown hr hq hh, setJobs_eq] at hpos
    obtain ⟨j, b, hb, hset⟩ := exists_of_jobCount_pos hpos
    obtain ⟨w, hw, -⟩ := (referenceLaw_teardown x hr).setNamed j b hb
    rw [← of_decide_eq_true hset]
    exact ⟨w, hw⟩

theorem coef_of_teardown {c : SetId} {v : CoefSet} (hv : s.coef c = some v) :
    (∀ o crc, v.owner = some x → v.phase = .ready o crc → 0 < setJobsOf (otherPort x) c s →
      (teardown x s).coef c = some
        { v with owner := none, phase := .ready true crc, refs := setJobsOf (otherPort x) c s }) ∧
    (v.owner ≠ some (otherPort x) → setJobsOf (otherPort x) c s = 0 → (teardown x s).coef c = none) ∧
    (v.owner = some (otherPort x) ∨ (v.owner = none ∧ 0 < setJobsOf (otherPort x) c s) →
      (teardown x s).coef c = some { v with refs := setJobsOf (otherPort x) c s }) := by
  refine ⟨fun o crc ho hp hpos => ?_, fun hy h0 => ?_, fun h => ?_⟩
  · obtain ⟨w, ht⟩ := coef_teardown_exists hr hq hh hv (.inr hpos)
    obtain ⟨o', crc', -, hp', rfl⟩ | ⟨hne, -⟩ := coef_teardown_shape hr hq hh hv ht
    · cases hp.symm.trans hp'
      exact ht
    · exact absurd ho hne
  · cases ht : (teardown x s).coef c with
    | none => rfl
    | some w =>
      have horphan := (referenceLaw_teardown x hr).setOrphan c w ht
      obtain ⟨o, crc, -, -, rfl⟩ | ⟨hne, rfl⟩ := coef_teardown_shape hr hq hh hv ht
      · exact absurd h0 (horphan.2 rfl).ne'
      · exact absurd h0 (horphan.2 (horphan.1.mpr (owner_eq_none hne hy))).ne'
  · obtain ⟨w, ht⟩ := coef_teardown_exists hr hq hh hv (h.imp_right And.right)
    obtain ⟨o, crc, ho, -, -⟩ | ⟨-, rfl⟩ := coef_teardown_shape hr hq hh hv ht
    · rcases h with hy | ⟨hnone, -⟩
      · exact absurd (Option.some.inj (hy.symm.trans ho)) (otherPort_ne x)
      · exact absurd (hnone.symm.trans ho) nofun
    · exact ht

end

/-- Settles O37: the jobs go one by one, each with its part in the scheduler; the counts are then those of the jobs
left, and decide with the owners which rings and sets are left. -/
theorem teardownLeavesNothingOfTheSession : Obligations.TeardownLeavesNothingOfTheSession := by
  intro s x hsched hr hh t y
  have hq := ((schedulerLaw_iff s).mp hsched).1
  have hother : t.session y = s.session y := by
    rw [session_teardown, if_neg (otherPort_ne x)]
    exact (torn_jobsGone hr hq hh).apart.session y (otherPort_ne x)
  have hclosed : t.session x = Session.closed := by rw [session_teardown, if_pos rfl]
  obtain ⟨ports, spWord, sampleMem, coefMem, pending, lastServed, txU, txS, baud, urx, lastByteAt, ms, epoch⟩ :
      _ ∧ _ ∧ _ ∧ _ ∧ _ ∧ _ ∧ _ ∧ _ ∧ _ ∧ _ ∧ _ ∧ _ ∧ _ := by
    simpa only [State.surroundings, Prod.mk.injEq] using surroundings_teardown (x := x) hr hq hh
  exact ⟨hclosed, hother, ports, spWord, sampleMem, coefMem, pending, lastServed, txU, txS, baud, urx,
    lastByteAt, ms, epoch, (changes_teardown x s).keeps BindingLaw.change, keepsExtents_teardown x s,
    job_of_teardown hr hq hh, cls_of_teardown hr hq hh, psu_of_teardown hr hq hh,
    fun _ => ring_teardown_absent hr hq hh, fun _ _ => ring_of_teardown hr hq hh,
    fun _ => coef_teardown_empty hr hq hh, fun _ _ => coef_of_teardown hr hq hh⟩

end Sys2Proof.Machine
end

section
/-! SUPPORT. The notice unit's own happenings: acknowledgement, the end of a transmission and the expiry of
the timer (09 R158 to R163, 10 R174, R177). -/

namespace Sys2Proof.Machine

/-! ### The notice timer (09 R158) -/

/-- A change of a session's record with the timer set afresh after it is one change. -/
theorem setTimer_modSession (x : Port) (f : Session → Session) (s : State) :
    setTimer x (s.modSession x f) = s.modSession x fun z => { f z with timer := (f z).timerLaw } :=
  modSession_modSession s x f _

/-! ### Acknowledgement (09 R160, R161) -/

/-- The notices younger than one in flight are those behind the first that carries its number (09 R160). -/
theorem younger_append {q : Byte} {pre post : List Notice} {n : Notice}
    (hpre : ∀ m ∈ pre, m.frame.seq ≠ q) (hn : n.frame.seq = q) :
    younger q (pre ++ n :: post) = some post := by
  induction pre with
  | nil => exact if_pos hn
  | cons m pre ih =>
    rw [List.forall_mem_cons] at hpre
    exact (if_neg hpre.1).trans (ih hpre.2)

theorem younger_eq_none {q : Byte} {l : List Notice} (h : ∀ m ∈ l, m.frame.seq ≠ q) :
    younger q l = none := by
  induction l with
  | nil => rfl
  | cons m l ih =>
    rw [List.forall_mem_cons] at h
    exact (if_neg h.1).trans (ih h.2)

/-- Settles O43: the younger notices are those behind the first with the ACK's number. -/
theorem ackIsCumulative : Obligations.AckIsCumulative := by
  intro s x f
  refine ⟨fun pre n post hpayload hopen hl hpre hn => ?_, fun h => ?_⟩
  · have hy : younger f.seq (s.session x).inFlight = some post := by rw [hl, younger_append hpre hn]
    have htaken : f.payload.isEmpty = true ∧ (s.session x).isOpen = true :=
      ⟨List.isEmpty_iff.mpr hpayload, hopen⟩
    simp only [arriveAck, if_pos htaken, hy, setTimer_modSession]
    rfl
  · unfold arriveAck
    split
    · rename_i htaken
      obtain ⟨hpayload, hopen⟩ := htaken
      have hother : ∀ m ∈ (s.session x).inFlight, m.frame.seq ≠ f.seq := by
        rcases h with h | h | h
        · exact absurd (List.isEmpty_iff.mp hpayload) h
        · exact absurd (hopen.symm.trans h) nofun
        · exact h
      rw [younger_eq_none hother]
    · rfl

/-! ### The end of a transmission (09 R158; 10 R174, R177) -/

/-- The notices in flight once the transmission of a frame has ended at a count: the one with its number and
no mark takes the count as its sent-at (09 R158). -/
def stampSent (f : Frame) (ms : Nat) (l : List Notice) : List Notice :=
  l.map fun n => if n.frame.seq = f.seq ∧ n.marked = false then { n with sentAt := some ms } else n

theorem noticeSent_eq (x : Port) (f : Frame) (s : State) : noticeSent x f s =
    if f.kind = kindNotice then s.modSession x fun z => { z with
      inFlight := stampSent f s.ms z.inFlight
      timer := Session.timerLaw { z with inFlight := stampSent f s.ms z.inFlight } }
    else s := by
  unfold noticeSent
  split
  · simp only [setTimer_modSession, stampSent, Bool.not_eq_true]
  · rfl

theorem endS_sent {s : State} {o : Outbound} (h : s.txS.current = some o) (hp : o.frame.size ≤ o.position) :
    endS s = noticeSent .s o.frame { s with txS := { s.txS with current := none, filler := false } } := by
  simp only [endS, h, if_pos hp]

/-- Settles O46: the notice sent is stamped with the count and the timer set by the one rule, at both ports.
-/
theorem transmissionEndStampsTheNotice : Obligations.TransmissionEndStampsTheNotice := by
  intro s f
  refine ⟨fun h => ?_, fun o h hf hp => ⟨?_, ?_⟩, fun h => ?_⟩
  · simp only [exec, execTransmissionEnd, h, endU, noticeSent_eq]
    rfl
  · subst hf
    rw [endS_sent h hp, noticeSent_eq]
    rfl
  · have hsent : sentWhole s = true := by
      simp only [sentWhole, h, decide_eq_true_eq]
      exact hf ▸ hp
    simp only [exec, execTransmissionEnd, if_pos hsent]
  · refine endS_of_not_sentWhole ?_
    unfold sentWhole
    cases hc : s.txS.current with
    | none => rfl
    | some o => exact decide_eq_false (Nat.not_le.mpr (h o hc))

/-! ### The expiry of the timer (09 R162, R163) -/

/-- The end of a transmission on port S leaves the clocks, the ports and every retry count. -/
theorem endS_leaves (s : State) : (endS s).ms = s.ms ∧ (endS s).lastByteAt = s.lastByteAt ∧
    (endS s).ports = s.ports ∧ ∀ x, ((endS s).session x).retry = (s.session x).retry := by
  unfold endS
  cases s.txS.current with
  | none => exact ⟨rfl, rfl, rfl, fun _ => rfl⟩
  | some o =>
    simp only [noticeSent_eq]
    split
    · split
      · exact ⟨rfl, rfl, rfl, fun x => by cases x <;> rfl⟩
      · exact ⟨rfl, rfl, rfl, fun _ => rfl⟩
    · exact ⟨rfl, rfl, rfl, fun _ => rfl⟩

theorem gapDue_endS (s : State) : gapDue (endS s) = gapDue s := by
  obtain ⟨-, hlast, hports, -⟩ := endS_leaves s
  have hport : (endS s).port .u = s.port .u := congrArg (Pair.look · .u) hports
  simp only [gapDue, hport, hlast]

/-- A count that has come, or before which no timer and no gap limit is set, is reached in quiet (log 4). -/
theorem quietUntil_of {t : Nat} {s : State} (h : t ≤ s.ms ∨
    (∀ x t', (s.session x).timer = some t' → t ≤ t') ∧ ∀ t', gapDue s = some t' → t ≤ t') :
    quietUntil t s = true := by
  have due : ∀ {d : Option Nat}, (∀ t', d = some t' → t ≤ t') →
      (match d with | some t' => decide (t ≤ t') | none => true) = true := fun {d} hd => by
    cases d with
    | none => rfl
    | some t' => exact decide_eq_true (hd t' rfl)
  rcases h with h | ⟨htimer, hgap⟩
  · simp [quietUntil, h]
  · simp only [quietUntil, List.all_cons, List.all_nil, Bool.and_true, Bool.or_eq_true, Bool.and_eq_true]
    exact .inr ⟨due (htimer .u), due (htimer .s), due hgap⟩

theorem markAll_eq (x : Port) (s : State) : markAll x s = s.modSession x fun z =>
    let l := z.inFlight.map fun n =>
      if beingSent x n s then n else { n with marked := true, sentAt := none }
    { z with inFlight := l, retry := z.retry + 1, timer := Session.timerLaw { z with inFlight := l } } :=
  setTimer_modSession x _ s

/-- An expiry of the timer whose count has come, or comes in quiet, takes place at that count (log 4, log
7). -/
theorem exec_noticeTimerExpiry {x : Port} {t : Nat} {s : State} (ht : ((endS s).session x).timer = some t)
    (hq : quietUntil t (endS s) = true) : exec (.noticeTimerExpiry x) s =
      .next (finish (expire x { endS s with ms := max s.ms t })) := by
  have hms := (endS_leaves s).1
  simp only [exec, execNoticeTimerExpiry, timed, ht, if_pos hq, advanceTo, hms]

/-- Settles O47: the expiry takes place at its count, and the retry count and the session's state are those
before the end of a transmission. -/
theorem timerExpiryMarksOrLosesTheSession : Obligations.TimerExpiryMarksOrLosesTheSession := by
  intro s x t e ht hdue
  obtain ⟨hms, -, -, hretry⟩ := endS_leaves s
  have hquiet : quietUntil t e = true := by
    refine quietUntil_of (hdue.imp (fun h => hms ▸ h) fun ⟨hother, hgap⟩ => ⟨fun y t' hy => ?_, ?_⟩)
    · by_cases hyx : y = x
      · rw [hyx, ht] at hy
        cases hy
        exact le_rfl
      · exact hother t' (eq_otherPort_of_ne hyx ▸ hy)
    · rwa [gapDue_endS]
  have hexec := exec_noticeTimerExpiry ht hquiet
  refine ⟨fun hfew => ?_, fun hmany hopen => ?_⟩
  · have hmark : (({ e with ms := max s.ms t } : State).session x).retry < Config.maxRetries :=
      (hretry x).trans_lt hfew
    rw [hexec, expire, if_pos hmark, markAll_eq]
    rfl
  · have hlost : ¬ (({ e with ms := max s.ms t } : State).session x).retry < Config.maxRetries :=
      Nat.not_lt.mpr (hmany.trans_eq (hretry x).symm)
    have hstill : (({ e with ms := max s.ms t } : State).session x).isOpen = true :=
      ((sends_endS s).isOpen x).trans hopen
    rw [hexec, expire, if_neg hlost, teardownIfOpen, if_pos hstill]
    rfl

end Sys2Proof.Machine
end

section
/-! SUPPORT. The pending lists and the watches: what the laws of notices ask of each list and of each job,
and the changes of a list that keep it (05 R94 to R99, 09 R154, R155). -/

namespace Sys2Proof.Machine

/-! ### Entries of one kind for one job (09 R154) -/

/-- An entry less its figures: its kind and its job. -/
def Entry.subject : Entry → Entry
  | .alert j _ _ _ _ => .alert j .unknown 0 0 0
  | .fault j _ _ => .fault j 0 0
  | .overrun j _ => .overrun j 0
  | .results => .results

theorem Entry.sameKind_iff (e f : Entry) : e.sameKind f = true ↔ e.subject = f.subject := by
  cases e <;> cases f <;> simp [Entry.sameKind, Entry.subject]

@[simp] theorem Entry.sameKind_alert (e : Entry) (j : JobId) (c : Class) (v : Int) (run : Word16) (n : Nat) :
    e.sameKind (.alert j c v run n) = e.isAlertOf j := by cases e <;> rfl

@[simp] theorem Entry.sameKind_fault (e : Entry) (j : JobId) (r : RingId) (n : Nat) :
    e.sameKind (.fault j r n) = e.isFaultOf j := by cases e <;> rfl

@[simp] theorem Entry.sameKind_overrun (e : Entry) (j : JobId) (n : Nat) :
    e.sameKind (.overrun j n) = e.isOverrunOf j := by cases e <;> rfl

@[simp] theorem Entry.sameKind_results (e : Entry) : e.sameKind .results = e.isResults := by
  cases e <;> rfl

/-- No two entries of a list are of the same kind for the same job. -/
def DistinctEntries (l : List Entry) : Prop := l.Pairwise fun e f => e.sameKind f = false

theorem distinctEntries_iff (l : List Entry) : DistinctEntries l ↔ (l.map Entry.subject).Nodup := by
  have iff : ∀ e f : Entry, e.sameKind f = false ↔ e.subject ≠ f.subject := fun e f => by
    rw [← Bool.not_eq_true, Entry.sameKind_iff]
  simp only [DistinctEntries, iff, List.Nodup, List.pairwise_map]

/-! ### The classes of a job's pending ALERT entries -/

/-- The class of an ALERT entry of the job. -/
def Entry.alertClass? (j : JobId) : Entry → Option Class
  | .alert k c _ _ _ => if k = j then some c else none
  | _ => none

/-- The classes of a job's ALERT entries in a list. -/
def alertClasses (j : JobId) (l : List Entry) : List Class := l.filterMap (Entry.alertClass? j)

theorem Entry.alertClass?_eq_some {j : JobId} {e : Entry} {c : Class} (h : e.alertClass? j = some c) :
    ∃ v run n, e = .alert j c v run n := by
  cases e with
  | alert k c' v run n =>
    simp only [Entry.alertClass?, Option.ite_none_right_eq_some, Option.some.injEq] at h
    obtain ⟨rfl, rfl⟩ := h
    exact ⟨v, run, n, rfl⟩
  | _ => cases h

@[simp] theorem Entry.alertClass?_alert (j k : JobId) (c : Class) (v : Int) (run : Word16) (n : Nat) :
    (Entry.alert k c v run n).alertClass? j = if k = j then some c else none := rfl

theorem Entry.alertClass?_eq_none (j : JobId) (e : Entry) :
    e.alertClass? j = none ↔ e.isAlertOf j = false := by
  cases e <;> simp [Entry.alertClass?, Entry.isAlertOf]

theorem mem_alertClasses {j : JobId} {l : List Entry} {c : Class} :
    c ∈ alertClasses j l ↔ ∃ v run n, Entry.alert j c v run n ∈ l := by
  simp only [alertClasses, List.mem_filterMap]
  constructor
  · rintro ⟨e, he, hc⟩
    obtain ⟨v, run, n, rfl⟩ := Entry.alertClass?_eq_some hc
    exact ⟨v, run, n, he⟩
  · rintro ⟨v, run, n, he⟩
    exact ⟨_, he, if_pos rfl⟩

theorem alertClasses_eq_nil {j : JobId} {l : List Entry} :
    alertClasses j l = [] ↔ l.any (Entry.isAlertOf j) = false := by
  simp only [alertClasses, List.filterMap_eq_nil_iff, Entry.alertClass?_eq_none, List.any_eq_false,
    Bool.not_eq_true]

theorem alertClasses_append (j : JobId) (l m : List Entry) :
    alertClasses j (l ++ m) = alertClasses j l ++ alertClasses j m := List.filterMap_append

theorem alertClasses_alert_cons (j : JobId) (c : Class) (v : Int) (run : Word16) (n : Nat) (l : List Entry) :
    alertClasses j (.alert j c v run n :: l) = c :: alertClasses j l :=
  List.filterMap_cons_some (if_pos rfl)

/-! ### Changes of a list -/

/-- A change of a pending list that keeps its entries distinct, and the ALERT entries of the jobs of `P`. -/
structure ListKept (P : JobId → Prop) (l l' : List Entry) : Prop where
  distinct : DistinctEntries l → DistinctEntries l'
  classes : ∀ j, P j → alertClasses j l' = alertClasses j l

section
variable {P : JobId → Prop} {l : List Entry}

theorem ListKept.refl (l : List Entry) : ListKept P l l := ⟨id, fun _ _ => rfl⟩

theorem ListKept.of_eq {l l' : List Entry} (h : l' = l) : ListKept P l l' := by
  rw [h]
  exact .refl l

theorem ListKept.trans {l m n : List Entry} (h : ListKept P l m) (h' : ListKept P m n) :
    ListKept P l n :=
  ⟨fun hd => h'.distinct (h.distinct hd), fun j hj => (h'.classes j hj).trans (h.classes j hj)⟩

/-- Entries are folded in place (09 R155). -/
theorem ListKept.map {g : Entry → Entry} (hs : ∀ e, (g e).subject = e.subject)
    (hc : ∀ j e, P j → (g e).alertClass? j = e.alertClass? j) : ListKept P l (l.map g) := by
  refine ⟨fun hd => ?_, fun j hj => ?_⟩
  · rw [distinctEntries_iff] at hd ⊢
    rwa [List.map_map, show Entry.subject ∘ g = Entry.subject from funext hs]
  · rw [alertClasses, List.filterMap_map]
    exact List.filterMap_congr fun e _ => hc j e hj

/-- Entries are withdrawn. -/
theorem ListKept.filter {p : Entry → Bool} (h : ∀ j c v run n, P j → p (.alert j c v run n) = true) :
    ListKept P l (l.filter p) := by
  refine ⟨List.Pairwise.filter p, fun j hj => ?_⟩
  rw [alertClasses, List.filterMap_filter]
  refine List.filterMap_congr fun e _ => ?_
  split
  · rfl
  · rename_i hp
    refine (Option.eq_none_iff_forall_ne_some.mpr fun c hc => hp ?_).symm
    obtain ⟨v, run, n, rfl⟩ := Entry.alertClass?_eq_some hc
    exact h j c v run n hj

/-- An entry of a kind that has none for its job joins the tail. -/
theorem ListKept.push {e : Entry} (hnew : l.any (fun f => f.sameKind e) = false)
    (hc : ∀ j, P j → e.alertClass? j = none) : ListKept P l (l ++ [e]) := by
  refine ⟨fun hd => ?_, fun j hj => ?_⟩
  · refine List.pairwise_append.mpr ⟨hd, List.pairwise_singleton _ _, fun f hf g hg => ?_⟩
    rw [List.mem_singleton.mp hg]
    exact Bool.eq_false_iff.mpr (List.any_eq_false.mp hnew f hf)
  · simp [alertClasses, hc j hj]

/-- The head of the list is sent (09 R157). -/
theorem ListKept.tail {e : Entry} (hc : ∀ j, P j → e.alertClass? j = none) : ListKept P (e :: l) l :=
  ⟨List.Pairwise.of_cons, fun j hj => (List.filterMap_cons_none (hc j hj)).symm⟩

theorem ListKept.requestFault (j : JobId) (r : RingId) : ListKept P l (requestFault j r l) := by
  unfold Machine.requestFault
  split
  · refine .map (fun e => ?_) fun k e _ => ?_ <;> cases e with
    | fault i r' n => simp only; split <;> simp_all [Entry.subject, Entry.alertClass?]
    | _ => rfl
  · rename_i h
    exact .push (by simpa using h) fun _ _ => rfl

theorem ListKept.requestOverrun (j : JobId) : ListKept P l (requestOverrun j l) := by
  unfold Machine.requestOverrun
  split
  · refine .map (fun e => ?_) fun k e _ => ?_ <;> cases e with
    | overrun i n => simp only; split <;> simp_all [Entry.subject, Entry.alertClass?]
    | _ => rfl
  · rename_i h
    exact .push (by simpa using h) fun _ _ => rfl

theorem ListKept.withdrawResults : ListKept P l (withdrawResults l) := .filter fun _ _ _ _ _ _ => rfl

/-- A RESULTS entry joins a list that has none (04 R83). -/
theorem ListKept.pushResults (h : ¬ l.any Entry.isResults = true) : ListKept P l (l ++ [.results]) :=
  .push (by simpa using h) fun _ _ => rfl

end

section
variable {j : JobId} {l : List Entry}

theorem ListKept.withdrawAlert : ListKept (· ≠ j) l (withdrawAlert j l) :=
  .filter fun k c v run n hk => by simp [Entry.isAlertOf, hk]

theorem ListKept.withdrawJob : ListKept (· ≠ j) l (withdrawJob j l) :=
  .filter fun k c v run n hk => by
    simp [Entry.names, Entry.isAlertOf, Entry.isFaultOf, Entry.isOverrunOf, hk]

theorem ListKept.foldAlert (c : Class) (v : Int) (run : Word16) :
    ListKept (· ≠ j) l (foldAlert j c v run l) := by
  refine .map (fun e => ?_) fun k e hk => ?_ <;> cases e with
  | alert i c' v' run' n => simp only; split <;> simp_all [Entry.subject, Entry.alertClass?, Ne.symm]
  | _ => rfl

theorem alertClasses_withdrawAlert : alertClasses j (withdrawAlert j l) = [] := by
  rw [alertClasses_eq_nil, withdrawAlert, List.any_filter]
  simp

theorem alertClasses_withdrawJob : alertClasses j (withdrawJob j l) = [] := by
  rw [alertClasses_eq_nil, withdrawJob, List.any_filter]
  simp +contextual [Entry.names]

/-- A fold gives each ALERT entry of the job the class it is folded with (05 R96). -/
theorem alertClasses_foldAlert (c : Class) (v : Int) (run : Word16) :
    alertClasses j (foldAlert j c v run l) = (alertClasses j l).map fun _ => c := by
  unfold alertClasses foldAlert
  rw [List.filterMap_map, List.map_filterMap]
  refine List.filterMap_congr fun e _ => ?_
  cases e with
  | alert k c' v' run' n => simp only [Function.comp]; split <;> simp_all [Entry.alertClass?]
  | _ => rfl

end
end Sys2Proof.Machine
end

section
/-! SUPPORT. The laws of pending lists and watches as one law of each session and job, and the changes of
the state that keep them (05 R98, R99, 09 R154). -/

namespace Sys2Proof.Machine

/-! ### The law of a session's ALERT entries for a job (05 R98, R99) -/

/-- The two relations between a watch and the classes of its job's ALERT entries (05 R98). -/
def Watch.Agrees (w : Watch) (cs : List Class) : Prop :=
  (cs = [] → w.current = w.reported) ∧ ∀ c ∈ cs, c = w.current ∧ c ≠ w.reported

/-- The session of a job and its watch. -/
def watching (j : JobId) (s : State) : Option (Port × Option Watch) :=
  (s.job j).map fun b => (b.owner, b.watch)

/-- The classes of the ALERT entries that session `x` has pending for a job, beside the job's session and
watch: there are none for another session's job, and a watch of the session agrees with them. -/
structure AlertsAgree (x : Port) (o : Option (Port × Option Watch)) (cs : List Class) : Prop where
  owned : cs ≠ [] → ∃ w, o = some (x, w)
  watch : ∀ w, o = some (x, some w) → w.Agrees cs

/-- The ALERT entries of every session agree with every job. -/
def AlertLaw (s : State) : Prop :=
  ∀ x j, AlertsAgree x (watching j s) (alertClasses j (s.session x).pendingList)

theorem watching_of_job {j : JobId} {b : Job} {s : State} (h : s.job j = some b) :
    watching j s = some (b.owner, b.watch) := by rw [watching, h, Option.map_some]

theorem watching_eq_some {j : JobId} {s : State} {x : Port} {w : Option Watch} :
    watching j s = some (x, w) ↔ ∃ b, s.job j = some b ∧ b.owner = x ∧ b.watch = w := by
  simp [watching]

theorem ownerOf_eq_watching (j : JobId) (s : State) : ownerOf j s = (watching j s).map Prod.fst := by
  rw [ownerOf_eq, watching, Option.map_map]
  rfl

theorem watching_putJob (j k : JobId) (o : Option Job) (s : State) :
    watching k (s.putJob j o) =
      if k = j then o.map fun b => (b.owner, b.watch) else watching k s := by
  rw [watching, State.job_putJob, apply_ite (Option.map _)]
  rfl

theorem alertLaw_iff (s : State) : AlertLaw s ↔ AlertsOwned s ∧ WatchLaw s := by
  constructor
  · intro h
    refine ⟨fun x j c v run n he => ?_, fun j b w hb hw => ?_⟩
    · have hc : c ∈ alertClasses j (s.session x).pendingList := mem_alertClasses.mpr ⟨v, run, n, he⟩
      obtain ⟨w, hw⟩ := (h x j).owned (List.ne_nil_of_mem hc)
      obtain ⟨b, hb, ho, -⟩ := watching_eq_some.mp hw
      exact ⟨b, hb, ho⟩
    · obtain ⟨hnone, hsome⟩ := (h b.owner j).watch w (by rw [watching_of_job hb, hw])
      exact ⟨fun hl => hnone (alertClasses_eq_nil.mpr hl),
        fun c v run n he => hsome c (mem_alertClasses.mpr ⟨v, run, n, he⟩)⟩
  · rintro ⟨howned, hwatch⟩ x j
    refine ⟨fun hne => ?_, fun w hw => ?_⟩
    · obtain ⟨c, hc⟩ := List.exists_mem_of_ne_nil _ hne
      obtain ⟨v, run, n, he⟩ := mem_alertClasses.mp hc
      obtain ⟨b, hb, rfl⟩ := howned x j c v run n he
      exact ⟨b.watch, watching_of_job hb⟩
    · obtain ⟨b, hb, rfl, hbw⟩ := watching_eq_some.mp hw
      obtain ⟨hnone, hsome⟩ := hwatch j b w hb hbw
      refine ⟨fun hl => hnone (alertClasses_eq_nil.mp hl), fun c hc => ?_⟩
      obtain ⟨v, run, n, he⟩ := mem_alertClasses.mp hc
      exact hsome c v run n he

section
variable {x : Port} {o : Option (Port × Option Watch)} {cs : List Class}

/-- A session has no ALERT entry for a job that is not its own. -/
theorem AlertsAgree.eq_nil (h : AlertsAgree x o cs) (ho : ∀ w, o ≠ some (x, w)) : cs = [] := by
  by_contra hne
  obtain ⟨w, hw⟩ := h.owned hne
  exact ho w hw

theorem AlertsAgree.elsewhere (ho : ∀ w, o ≠ some (x, w)) : AlertsAgree x o [] :=
  ⟨fun h => absurd rfl h, fun w hw => absurd hw (ho (some w))⟩

/-- A job without a watch asks nothing of its session's list. -/
theorem AlertsAgree.unwatched : AlertsAgree x (some (x, none)) cs := ⟨fun _ => ⟨none, rfl⟩, nofun⟩

theorem AlertsAgree.watched {w : Watch} (h : w.Agrees cs) : AlertsAgree x (some (x, some w)) cs :=
  ⟨fun _ => ⟨some w, rfl⟩, by rintro _ ⟨⟩; exact h⟩

end

/-- A classified result leaves the job's watch in agreement with its ALERT entry, and every other job's
entries alone (05 R95 to R97). -/
theorem watchResult_agrees {j : JobId} {v : Int} {run : Word16} {w : Watch} {l : List Entry} :
    ListKept (· ≠ j) l (watchResult j v run w l).2 ∧
      (w.Agrees (alertClasses j l) →
        (watchResult j v run w l).1.Agrees (alertClasses j (watchResult j v run w l).2)) := by
  by_cases hc : classify v w.low w.high = w.current
  · rw [watchResult_same hc]
    exact ⟨.refl l, id⟩
  by_cases hl : l.any (Entry.isAlertOf j) = true
  · by_cases hr : classify v w.low w.high = w.reported
    · rw [watchResult_back hc hl hr]
      refine ⟨.withdrawAlert, fun _ => ?_⟩
      rw [alertClasses_withdrawAlert]
      exact ⟨fun _ => hr, nofun⟩
    · rw [watchResult_further hc hl hr]
      refine ⟨.foldAlert _ _ _, fun _ => ?_⟩
      rw [alertClasses_foldAlert]
      refine ⟨fun hnil => ?_, fun c hmem => ?_⟩
      · rw [List.map_eq_nil_iff, alertClasses_eq_nil] at hnil
        exact absurd (hl.symm.trans hnil) nofun
      · obtain ⟨_, -, rfl⟩ := List.mem_map.mp hmem
        exact ⟨rfl, hr⟩
  · have hnone := Bool.eq_false_iff.mpr hl
    rw [watchResult_new hc hnone]
    refine ⟨.push (by simpa using hl) fun k hk => by simp [Ne.symm hk], fun ⟨hcur, _⟩ => ?_⟩
    have hnil := alertClasses_eq_nil.mpr hnone
    rw [alertClasses_append, hnil]
    refine ⟨fun h => absurd h (by simp [alertClasses]), fun c hmem => ?_⟩
    obtain rfl : c = classify v w.low w.high := by simpa [alertClasses] using hmem
    exact ⟨rfl, fun h => hc (h.trans (hcur hnil).symm)⟩

/-! ### Changes of the state -/

/-- A change of the state that keeps the pending entries distinct and, with them, the law of ALERT entries. -/
structure KeepsNotices (s t : State) : Prop where
  distinct : EntriesDistinct s → EntriesDistinct t
  alerts : EntriesDistinct s → AlertLaw s → AlertLaw t

theorem KeepsNotices.refl (s : State) : KeepsNotices s s := ⟨id, fun _ => id⟩

theorem KeepsNotices.trans {s t u : State} (h : KeepsNotices s t) (h' : KeepsNotices t u) :
    KeepsNotices s u :=
  ⟨fun hd => h'.distinct (h.distinct hd), fun hd ha => h'.alerts (h.distinct hd) (h.alerts hd ha)⟩

theorem KeepsNotices.foldl {α : Type} {f : State → α → State} (h : ∀ s a, KeepsNotices s (f s a))
    (l : List α) (s : State) : KeepsNotices s (l.foldl f s) := by
  induction l generalizing s with
  | nil => exact .refl s
  | cons a l ih => exact (h s a).trans (ih _)

/-- Every job keeps its session and its watch, and each list its ALERT entries. -/
theorem KeepsNotices.of_same {s t : State} (hw : ∀ j, watching j t = watching j s)
    (hl : ∀ x, ListKept (fun _ => True) (s.session x).pendingList (t.session x).pendingList) :
    KeepsNotices s t := by
  refine ⟨fun hd x => (hl x).distinct (hd x), fun _ ha x j => ?_⟩
  rw [hw, (hl x).classes j trivial]
  exact ha x j

/-- Jobs and sessions are the same. -/
theorem KeepsNotices.of_records {s t : State} (hj : t.jobs = s.jobs) (hs : t.sessions = s.sessions) :
    KeepsNotices s t :=
  .of_same (fun j => congrArg (fun u => (Table.look u j).map fun b => (b.owner, b.watch)) hj)
    fun x => .of_eq (congrArg (fun p => (Pair.look p x).pendingList) hs)

theorem RingsOnly.keepsNotices {s t : State} (e : RingsOnly s t) : KeepsNotices s t :=
  .of_records e.jobs e.sessions

theorem SetsOnly.keepsNotices {s t : State} (e : SetsOnly s t) : KeepsNotices s t :=
  .of_records e.jobs e.sessions

/-- One job's record changes, beside its session and its watch. -/
theorem KeepsNotices.putJob {s : State} {j : JobId} {b c : Job} (hb : s.job j = some b)
    (ho : c.owner = b.owner) (hw : c.watch = b.watch) : KeepsNotices s (s.putJob j (some c)) := by
  refine .of_same (fun k => ?_) fun _ => .refl _
  rw [watching_putJob]
  split
  · rename_i hk
    rw [hk, watching_of_job hb, Option.map_some, ho, hw]
  · rfl

/-- One session's record changes, its pending list in a way that keeps every job's ALERT entries. -/
theorem KeepsNotices.modList {s : State} {x : Port} {f : Session → Session}
    (h : ListKept (fun _ => True) (s.session x).pendingList (f (s.session x)).pendingList) :
    KeepsNotices s (s.modSession x f) := by
  refine .of_same (fun _ => rfl) fun y => ?_
  rw [State.session_modSession]
  split
  · rename_i hy
    rwa [hy]
  · exact .refl _

/-- One session's record changes, beside its pending list. -/
theorem KeepsNotices.modSession {s : State} {x : Port} {f : Session → Session}
    (h : (f (s.session x)).pendingList = (s.session x).pendingList) : KeepsNotices s (s.modSession x f) :=
  .modList (.of_eq h)

/-- The job is session `x`'s, or EMPTY. -/
def OnlyOf (x : Port) (j : JobId) (s : State) : Prop := ∀ y w, watching j s = some (y, w) → y = x

theorem onlyOf_of_job {x : Port} {j : JobId} {b : Job} {s : State} (hb : s.job j = some b)
    (ho : b.owner = x) : OnlyOf x j s := by
  intro y w hy
  rw [watching_of_job hb] at hy
  cases hy
  exact ho

theorem onlyOf_of_empty {x : Port} {j : JobId} {s : State} (hj : s.job j = none) : OnlyOf x j s := by
  intro y w hy
  rw [watching, hj] at hy
  cases hy

/-- Of jobs and pending lists, only job `j` and its ALERT entries in the list of session `x` differ. -/
structure JobChange (x : Port) (j : JobId) (s t : State) : Prop where
  jobs : ∀ k, k ≠ j → watching k t = watching k s
  sessions : ∀ y, y ≠ x → (t.session y).pendingList = (s.session y).pendingList
  list : ListKept (· ≠ j) (s.session x).pendingList (t.session x).pendingList

section
variable {x : Port} {j : JobId} {s t : State}

theorem JobChange.trans {u : State} (h : JobChange x j s t) (h' : JobChange x j t u) : JobChange x j s u :=
  ⟨fun k hk => (h'.jobs k hk).trans (h.jobs k hk), fun y hy => (h'.sessions y hy).trans (h.sessions y hy),
    h.list.trans h'.list⟩

theorem JobChange.of_records (hj : t.jobs = s.jobs) (hs : t.sessions = s.sessions) : JobChange x j s t :=
  ⟨fun k _ => congrArg (fun u => (Table.look u k).map fun b => (b.owner, b.watch)) hj,
    fun y _ => congrArg (fun p => (Pair.look p y).pendingList) hs,
    .of_eq (congrArg (fun p => (Pair.look p x).pendingList) hs)⟩

theorem JobChange.putJob (o : Option Job) : JobChange x j s (s.putJob j o) :=
  ⟨fun k hk => by rw [watching_putJob, if_neg hk], fun _ _ => rfl, .refl _⟩

theorem JobChange.modList {f : Session → Session}
    (h : ListKept (· ≠ j) (s.session x).pendingList (f (s.session x)).pendingList) :
    JobChange x j s (s.modSession x f) :=
  ⟨fun _ _ => rfl, fun y hy => by rw [State.session_modSession, if_neg hy],
    by rwa [State.session_modSession, if_pos rfl]⟩

theorem JobChange.distinct (h : JobChange x j s t) (hd : EntriesDistinct s) : EntriesDistinct t := by
  intro y
  by_cases hy : y = x
  · exact hy ▸ h.list.distinct (hd x)
  · rw [h.sessions y hy]
    exact hd y

theorem JobChange.alertLaw (h : JobChange x j s t) (before : OnlyOf x j s) (after : OnlyOf x j t)
    (hs : AlertLaw s) (hj : AlertsAgree x (watching j t) (alertClasses j (t.session x).pendingList)) :
    AlertLaw t := by
  intro y k
  by_cases hy : y = x <;> by_cases hk : k = j
  · rwa [hy, hk]
  · rw [hy, h.jobs k hk, h.list.classes k hk]
    exact hs x k
  · rw [hk, h.sessions y hy, (hs y j).eq_nil fun w hw => hy (before y w hw)]
    exact .elsewhere fun w hw => hy (after y w hw)
  · rw [h.jobs k hk, h.sessions y hy]
    exact hs y k

/-- A change of a session's own job that leaves the job in agreement with its ALERT entries keeps the laws. -/
theorem JobChange.keeps (h : JobChange x j s t) (before : OnlyOf x j s) (after : OnlyOf x j t)
    (hj : AlertsAgree x (watching j s) (alertClasses j (s.session x).pendingList) →
      AlertsAgree x (watching j t) (alertClasses j (t.session x).pendingList)) : KeepsNotices s t :=
  ⟨h.distinct, fun _ hs => h.alertLaw before after hs (hj (hs x j))⟩

end

end Sys2Proof.Machine
end

section
/-! SUPPORT. The operations of the result unit, the scheduler, the objects and the notice unit keep the laws
of pending lists and watches (02, 03, 04, 05, 09). -/

namespace Sys2Proof.Machine

/-! ### The result unit (04) -/

theorem keepsNotices_heldMove (x : Port) (s : State) : KeepsNotices s (heldMove x s) := by
  have move : ∀ j rest (s : State), KeepsNotices s (moveHeld x j rest s) := fun j rest s => by
    unfold moveHeld
    cases hj : s.job j with
    | none => exact .modSession rfl
    | some b =>
      simp only
      split
      · exact .trans (.modSession rfl) (.putJob (b := b) hj rfl rfl)
      · exact .modSession rfl
  unfold heldMove
  generalize (s.session x).heldOrder = l
  induction l generalizing s with
  | nil => exact .refl s
  | cons j rest ih =>
    unfold heldMoves
    split
    · exact (move j rest s).trans (ih _)
    · exact .refl s

theorem keepsNotices_resultsCheck (x : Port) (before : List Record) (s : State) :
    KeepsNotices s (resultsCheck x before s) := by
  rw [resultsCheck_eq]
  split
  · exact .modList .withdrawResults
  · split
    · rename_i h
      exact .modList (.pushResults h.2.2)
    · exact .refl s

/-- Records leave a result queue, and held ones may move in (04 R78, R79, R81). -/
theorem keepsNotices_removeResults (x : Port) (l before : List Record) (p : Prop) [Decidable p] (s : State) :
    KeepsNotices s (resultsCheck x before
      (if p then heldMove x (s.modSession x fun z => { z with results := l })
        else s.modSession x fun z => { z with results := l })) := by
  have h1 : KeepsNotices s (s.modSession x fun z => { z with results := l }) := .modSession rfl
  refine .trans ?_ (keepsNotices_resultsCheck x _ _)
  split
  · exact h1.trans (keepsNotices_heldMove x _)
  · exact h1

theorem keepsNotices_purge (x : Port) (j : JobId) (s : State) : KeepsNotices s (purge x j s) :=
  keepsNotices_removeResults x _ _ _ s

/-- A result enters the unit from a job whose record is the one given, less its state (04 R76). -/
theorem keepsNotices_postResult {j : JobId} {c : Job} (r : Record) {s : State} (hc : s.job j = some c) :
    KeepsNotices s (postResult j c r s) := by
  have put : ∀ st, KeepsNotices s (s.putJob j (some { c with state := st })) := fun st =>
    .putJob hc rfl rfl
  unfold postResult
  simp only
  split
  · exact ((put _).trans (.modSession rfl)).trans (keepsNotices_resultsCheck _ _ _)
  · exact (put _).trans (.modSession rfl)

/-! ### The run scheduler (03) -/

theorem keepsNotices_abandon (j : JobId) (b : Job) (s : State) : KeepsNotices s (abandon j b s) := by
  unfold abandon
  cases b.state <;> exact .of_records rfl rfl

theorem keepsNotices_startStep (s : State) : KeepsNotices s (startStep s) := by
  unfold startStep
  cases s.psu with
  | some run => exact .refl s
  | none =>
    cases nextToRun s with
    | none => exact .refl s
    | some t =>
      simp only [startJob]
      cases hj : s.job t.2 with
      | none => exact .refl s
      | some b =>
        simp only
        cases runOf t.2 b with
        | none => exact .refl s
        | some run =>
          have h1 : KeepsNotices s (s.putJob t.2 (some { b with state := .running })) := .putJob hj rfl rfl
          exact h1.trans (.of_records rfl rfl)

theorem keepsNotices_segmentEnd {b : Job} {run : Run} {s : State} (hb : s.job run.job = some b) :
    KeepsNotices s (segmentEnd b run s) := by
  have hb' : s.job (addProducts s b Config.segment run).job = some b := by
    rw [(addProducts_next s b Config.segment run).2, hb]
  have parked : KeepsNotices s (s.putJob (addProducts s b Config.segment run).job
      (some (b.parked (addProducts s b Config.segment run)))) := .putJob hb' rfl rfl
  unfold segmentEnd
  simp only
  split
  · exact parked.trans (.of_records rfl rfl)
  · exact .of_records rfl rfl

/-- At a run end the watch and the list change together, before the result enters its unit (03 R65, 05 R94).
-/
theorem keepsNotices_watchStep {j : JobId} {b c : Job} {r : Record} {s : State} (hb : s.job j = some b)
    (ho : c.owner = b.owner) (hw : c.watch = (watchStep j r b (s.session b.owner).pendingList).1) :
    KeepsNotices s ((s.modSession b.owner fun z =>
      { z with pendingList := (watchStep j r b (s.session b.owner).pendingList).2 }).putJob j (some c)) := by
  have hlist : ListKept (· ≠ j) (s.session b.owner).pendingList
      (watchStep j r b (s.session b.owner).pendingList).2 := by
    unfold watchStep
    cases b.watch with
    | none => exact .refl _
    | some w => exact watchResult_agrees.1
  refine JobChange.keeps (.trans (.modList hlist) (.putJob _)) (onlyOf_of_job hb rfl)
    (onlyOf_of_job (b := c) (by simp) ho) fun ha => ?_
  rw [watching_of_job hb] at ha
  rw [watching_putJob, if_pos rfl, Option.map_some, ho, hw]
  simp only [State.session_putJob, State.session_modSession, if_true, watchStep]
  cases hbw : b.watch with
  | none => exact .unwatched
  | some w => exact .watched (watchResult_agrees.2 (ha.watch w (by rw [hbw])))

/-- The record that enters the result unit replaces whatever the job's was. -/
theorem postResult_putJob (j : JobId) (c : Job) (r : Record) (s : State) :
    postResult j c r (s.putJob j (some c)) = postResult j c r s := by
  have put : ∀ st, (s.putJob j (some c)).putJob j (some { c with state := st }) =
      s.putJob j (some { c with state := st }) := fun st => by
    simp only [State.putJob, Table.put_put]
  simp only [postResult, put, State.session_putJob]

theorem keepsNotices_runEnd {b : Job} {run : Run} {s : State} (hb : s.job run.job = some b) :
    KeepsNotices s (runEnd b run s) := by
  have h1 : KeepsNotices s { s with psu := none } := .of_records rfl rfl
  unfold runEnd
  simp only
  rw [← postResult_putJob]
  refine (h1.trans (keepsNotices_watchStep (s := { s with psu := none }) hb ?_ ?_)).trans
    (keepsNotices_postResult _ (by simp))
  all_goals rfl

/-! ### Evictions, triggers, countdowns and samples (01 R11 to R16, 02 R34 to R39) -/

theorem keepsNotices_evict (r : RingId) (s : State) (j : JobId) : KeepsNotices s (evict r s j) := by
  unfold evict
  cases hj : s.job j with
  | none => exact .refl s
  | some b =>
    have hput : KeepsNotices (abandon j b s) ((abandon j b s).putJob j (some { b with
        state := b.returnState, lost := bump Config.counterLimit b.lost })) :=
      .putJob ((job_abandon j j b s).trans hj) rfl rfl
    exact ((keepsNotices_abandon j b s).trans hput).trans (.modList (.requestFault j r))

theorem keepsNotices_evictAll (r : RingId) (js : List JobId) (s : State) :
    KeepsNotices s (evictAll r js s) := .foldl (keepsNotices_evict r) js s

theorem keepsNotices_fire {j : JobId} {b c : Job} (head : Nat) (extra : Bool) {s : State}
    (hb : s.job j = some b) (ho : c.owner = b.owner) (hw : c.watch = b.watch) :
    KeepsNotices s (fire j c head extra s) := by
  have h1 : KeepsNotices s (s.putJob j (some { c with
      state := .ready, windowStart := head - c.par.length, triggerHead := head, extra := extra,
      preempted := false })) := .putJob hb ho hw
  exact h1.trans (.of_records rfl rfl)

theorem keepsNotices_trigger {j : JobId} {b : Job} (countdown head fill : Nat) {s : State}
    (hb : s.job j = some b) :
    KeepsNotices s (trigger j { b with countdown := countdown } head fill s) := by
  have put : KeepsNotices s (s.putJob j (some { b with
      countdown := countdown, missed := bump Config.counterLimit b.missed })) := .putJob hb rfl rfl
  have missed : KeepsNotices s ((s.putJob j (some { b with
      countdown := countdown, missed := bump Config.counterLimit b.missed })).modSession b.owner
        fun z => { z with pendingList := requestOverrun j z.pendingList }) :=
    put.trans (.modList (.requestOverrun j))
  unfold trigger
  split
  · exact .putJob hb rfl rfl
  · cases hst : b.state with
    | armed => exact keepsNotices_fire head false hb rfl rfl
    | defined => exact .putJob hb rfl rfl
    | ready | running | parked _ | held _ => rw [hst] at missed; exact missed

theorem keepsNotices_countdownJob (r : RingId) (head fill : Nat) (s : State) (j : JobId) :
    KeepsNotices s (countdownJob r head fill s j) := by
  unfold countdownJob
  cases hj : s.job j with
  | none => exact .refl s
  | some b =>
    simp only
    split
    · split
      · exact keepsNotices_trigger _ head fill hj
      · exact .putJob hj rfl rfl
    · exact .refl s

theorem keepsNotices_writeSample (r : RingId) (g : Ring) (v : Word16) (s : State) :
    KeepsNotices s (writeSample r g v s) := by
  have h1 : KeepsNotices s ({ s with
      sampleMem := s.sampleMem.write (g.base + g.head % g.capacity) v }.putRing r (some g.taken)) :=
    .of_records rfl rfl
  exact h1.trans (.foldl (keepsNotices_countdownJob r g.taken.head g.taken.fill) allJobs _)

theorem keepsNotices_writeSamples (r : RingId) (ws : List Word16) (n : Nat) (s : State) :
    KeepsNotices s (writeSamples r ws n s).2 := by
  induction ws generalizing n s with
  | nil => exact .refl s
  | cons v ws ih =>
    unfold writeSamples
    cases s.ring r with
    | none => exact .refl s
    | some g =>
      simp only
      split
      · exact (keepsNotices_writeSample r g v s).trans (ih _ _)
      · exact .refl s

/-! ### Definition and deletion (02 R29, R30, R45) -/

/-- An EMPTY record is given a job without a watch. -/
theorem keepsNotices_putNew {j : JobId} {d : Job} {s : State} (hj : s.job j = none) (hd : d.watch = none) :
    KeepsNotices s (s.putJob j (some d)) := by
  refine (JobChange.putJob (x := d.owner) _).keeps (onlyOf_of_empty hj) (onlyOf_of_job (b := d) (by simp) rfl)
    fun _ => ?_
  rw [watching_putJob, if_pos rfl, Option.map_some, hd]
  exact .unwatched

/-- A session's job is given a record without a watch, or with a fresh one, and its ALERT entry is withdrawn
(02 R30, 05 R92, R93). -/
theorem keepsNotices_rewatch {x : Port} {j : JobId} {b d : Job} {s : State} (hb : s.job j = some b)
    (hx : b.owner = x) (ho : d.owner = x) (hd : ∀ w, d.watch = some w → w.current = w.reported) :
    KeepsNotices s ((s.putJob j (some d)).modSession x fun z =>
      { z with pendingList := withdrawAlert j z.pendingList }) := by
  refine JobChange.keeps (.trans (.putJob _) (.modList .withdrawAlert)) (onlyOf_of_job hb hx)
    (onlyOf_of_job (b := d) (by simp) ho) fun _ => ?_
  rw [watching_of_job (b := d) (by simp), ho, State.session_modSession, if_pos rfl,
    alertClasses_withdrawAlert]
  cases hw : d.watch with
  | none => exact .unwatched
  | some w => exact .watched ⟨fun _ => hd w hw, nofun⟩

theorem keepsNotices_defineNew {x : Port} {j : JobId} {r : RingId} {c : SetId} {par : Params} {s : State}
    (hj : s.job j = none) : KeepsNotices s (defineNew x j r c par s) := by
  have hjobs := (refSet_only c (refRing r s)).jobs.trans (refRing_only r s).jobs
  exact ((refRing_only r s).keepsNotices.trans (refSet_only c _).keepsNotices).trans
    (keepsNotices_putNew ((congrArg (Table.look · j) hjobs).trans hj) rfl)

theorem keepsNotices_redefine {x : Port} {j : JobId} {b : Job} (r : RingId) (c : SetId) (par : Params)
    {s : State} (hj : s.job j = some b) (ho : b.owner = x) :
    KeepsNotices s (redefine x j b r c par s) := by
  have h1 := (refRing_only r s).trans (unrefRing_only b.ring _)
  have h2 := (refSet_only c (unrefRing b.ring (refRing r s))).trans (unrefSet_only b.set _)
  unfold redefine
  exact (h1.keepsNotices.trans h2.keepsNotices).trans (keepsNotices_rewatch
    ((congrArg (Table.look · j) (h2.jobs.trans h1.jobs)).trans hj) ho rfl nofun)

/-- JOB_WATCH replaces a watch by none or by a fresh one (05 R92, R93). -/
theorem keepsNotices_putWatch {x : Port} {j : JobId} {b : Job} {w : Option Watch} {s : State}
    (hj : s.job j = some b) (ho : b.owner = x) (hw : ∀ v, w = some v → v.current = v.reported) :
    KeepsNotices s (putWatch x j b w s) := keepsNotices_rewatch hj ho ho hw

/-- A purge leaves every job with its session. -/
theorem ownerOf_purge (x : Port) (j k : JobId) (s : State) : ownerOf k (purge x j s) = ownerOf k s := by
  unfold purge
  simp only
  rw [(claims_resultsCheck _ _ _).ownerOf]
  split
  · exact ownerOf_heldMove _ _ _
  · rfl

theorem keepsNotices_endFire (j : JobId) (b : Job) (s : State) : KeepsNotices s (endFire j b s) := by
  unfold endFire
  cases b.state with
  | held r => exact .modSession rfl
  | _ => exact keepsNotices_abandon j b s

/-- A session's job goes with every entry that names it (02 R45, steps 3 to 5). -/
theorem keepsNotices_takeJob {x : Port} {j : JobId} {s u : State} (ho : ownerOf j s = some x)
    (hj : u.jobs = s.jobs) (hs : u.sessions =
      (s.modSession x fun z => { z with pendingList := withdrawJob j z.pendingList }).sessions) :
    KeepsNotices s (u.putJob j none) := by
  have hwithdrawn : JobChange x j s
      (s.modSession x fun z => { z with pendingList := withdrawJob j z.pendingList }) := .modList .withdrawJob
  have hlist : (u.session x).pendingList = withdrawJob j (s.session x).pendingList := by
    rw [show u.session x = _ from congrArg (Pair.look · x) hs, State.look_sessions, State.session_modSession,
      if_pos rfl]
  refine ((hwithdrawn.trans (.of_records hj hs)).trans (.putJob none)).keeps (fun y w hy => ?_)
    (onlyOf_of_empty (by simp)) fun _ => ?_
  · rw [ownerOf_eq_watching, hy] at ho
    exact Option.some.inj ho
  · rw [watching_putJob, if_pos rfl, State.session_putJob, hlist, alertClasses_withdrawJob]
    exact .elsewhere nofun

theorem keepsNotices_deleteJob (j : JobId) (s : State) : KeepsNotices s (deleteJob j s) := by
  unfold deleteJob
  cases hj : s.job j with
  | none => exact .refl s
  | some b =>
    have hpurge := (keepsNotices_endFire j b s).trans (keepsNotices_purge b.owner j _)
    refine hpurge.trans (keepsNotices_takeJob (x := b.owner) ?_
      ((unrefSet_only b.set _).jobs.trans (unrefRing_only b.ring _).jobs)
      ((unrefSet_only b.set _).sessions.trans (unrefRing_only b.ring _).sessions))
    rw [ownerOf_purge, ownerOf_eq, show (endFire j b s).job j = s.job j from
      congrArg (Table.look · j) (jobs_endFire j b s), hj, Option.map_some]

/-! ### Teardown (08 R149) -/

theorem keepsNotices_putLoad (x : Port) (l : Option Load) (s : State) : KeepsNotices s (putLoad x l s) :=
  .modSession rfl

theorem keepsNotices_jobsGone (x : Port) (s : State) : KeepsNotices s (jobsGone x s) := by
  have hload : KeepsNotices s (closeLoad x s) := by
    unfold closeLoad
    cases (s.session x).load with
    | none => exact .refl s
    | some l => exact (freeSet_only l.set s).keepsNotices.trans (keepsNotices_putLoad x none _)
  refine hload.trans (.foldl (fun s j => ?_) allJobs _)
  unfold deleteOwned
  cases s.job j with
  | none => exact .refl s
  | some b =>
    simp only
    split
    · exact keepsNotices_deleteJob j s
    · exact .refl s

/-- The record of a session that owns no job is closed. -/
theorem keepsNotices_close {x : Port} {s : State} (hx : ∀ j, ownerOf j s ≠ some x) :
    KeepsNotices s (s.putSession x Session.closed) := by
  have closed : (s.putSession x Session.closed).session x = Session.closed := by simp
  have other : ∀ y, y ≠ x → (s.putSession x Session.closed).session y = s.session y :=
    fun y hy => by simp [hy]
  refine ⟨fun hd y => ?_, fun _ hs y j => ?_⟩ <;> by_cases hy : y = x
  · rw [hy, closed]
    exact List.Pairwise.nil
  · rw [other y hy]
    exact hd y
  · rw [hy, closed]
    refine .elsewhere fun w hw => hx j ?_
    rw [ownerOf_eq_watching, show watching j s = _ from hw, Option.map_some]
  · rw [other y hy]
    exact hs y j

theorem keepsNotices_teardown (x : Port) (s : State) : KeepsNotices s (teardown x s) := by
  have hsame : KeepsNotices (jobsGone x s) (objectsGone x s) :=
    .of_records (jobs_objectsGone x s) (sessions_objectsGone x s)
  refine ((keepsNotices_jobsGone x s).trans hsame).trans (keepsNotices_close fun j => ?_)
  rw [ownerOf_eq, show (objectsGone x s).job j = (jobsGone x s).job j from
    congrArg (Table.look · j) (jobs_objectsGone x s), ← ownerOf_eq]
  exact ownerOf_jobsGone x j s

theorem keepsNotices_teardownIfOpen (x : Port) (s : State) : KeepsNotices s (teardownIfOpen x s) := by
  unfold teardownIfOpen
  split
  · exact keepsNotices_teardown x s
  · exact .refl s

/-! ### Sending and the transmitters (09 R157, R159; 10 R174 to R180) -/

/-- A fresh offer is the head of the pending list (09 R156). -/
theorem pendingList_of_offer_fresh {x : Port} {s : State} {e : Entry} {rest : List Entry}
    (h : offer x s = .fresh e rest) : (s.session x).pendingList = e :: rest := by
  unfold offer at h
  simp only at h
  split at h
  · split at h
    · cases h
    · split at h
      · rename_i hl
        split at h <;> cases h
        exact hl
      · cases h
  · cases h

theorem sessions_reportClass (e : Entry) (s : State) : (reportClass e s).sessions = s.sessions := by
  cases e with
  | alert j c v run n =>
    cases hj : s.job j with
    | none => simp only [reportClass, hj]
    | some b => cases hw : b.watch <;> simp only [reportClass, hj, hw, State.sessions_putJob]
  | _ => rfl

/-- Sending an ALERT sets the reported class of its job's watch, and no more (05 R98). -/
theorem watching_reportClass (j k : JobId) (c : Class) (v : Int) (run : Word16) (n : Nat) (s : State) :
    watching k (reportClass (.alert j c v run n) s) =
      if k = j then (watching k s).map fun o => (o.1, o.2.map fun w => { w with reported := c })
      else watching k s := by
  cases hj : s.job j with
  | none =>
    have hnone : watching j s = none := by rw [watching, hj, Option.map_none]
    simp only [reportClass, hj]
    split
    · rename_i hk
      rw [hk, hnone, Option.map_none]
    · rfl
  | some b =>
    cases hw : b.watch with
    | none =>
      simp only [reportClass, hj, hw]
      split
      · rename_i hk
        rw [hk, watching_of_job hj, hw]
        rfl
      · rfl
    | some w =>
      simp only [reportClass, hj, hw]
      rw [watching_putJob]
      split
      · rename_i hk
        rw [hk, watching_of_job hj, hw]
        rfl
      · rfl

/-- A watch agrees with the one ALERT entry of its job, and so, once it is sent, with none (05 R98). -/
theorem Watch.Agrees.sent {w : Watch} {c : Class} (h : w.Agrees [c]) :
    ({ w with reported := c } : Watch).Agrees [] :=
  ⟨fun _ => (h.2 c (List.mem_singleton_self c)).1.symm, nofun⟩

/-- A job has one ALERT entry at most (09 R154). -/
theorem alertClasses_of_distinct {j : JobId} {c : Class} {v : Int} {run : Word16} {n : Nat}
    {rest : List Entry} (h : DistinctEntries (.alert j c v run n :: rest)) : alertClasses j rest = [] := by
  rw [alertClasses_eq_nil, List.any_eq_false]
  intro e he
  have hother := (List.pairwise_cons.mp h).1 e he
  cases e with
  | alert k c' v' run' n' => simpa [Entry.sameKind, Entry.isAlertOf, eq_comm] using hother
  | _ => nofun

/-- The ALERT at the head of a list is sent: its job's watch has reported its class (09 R157, 05 R98). -/
theorem keepsNotices_sendAlert {x : Port} {j : JobId} {c : Class} {v : Int} {run : Word16} {n : Nat}
    {rest : List Entry} {s : State} (h : (s.session x).pendingList = .alert j c v run n :: rest) :
    KeepsNotices s (sendEntry x (.alert j c v run n) rest s) := by
  have hwatch : ∀ k, watching k (sendEntry x (.alert j c v run n) rest s) =
      watching k (reportClass (.alert j c v run n) s) := fun _ => rfl
  have hlist : ((sendEntry x (.alert j c v run n) rest s).session x).pendingList = rest := by
    rw [sendEntry, State.session_modSession, if_pos rfl]
  have hother : ∀ y, y ≠ x → ((sendEntry x (.alert j c v run n) rest s).session y).pendingList =
      (s.session y).pendingList := fun y hy => by
    rw [sendEntry, State.session_modSession, if_neg hy]
    exact congrArg (fun p => (Pair.look p y).pendingList) (sessions_reportClass _ s)
  have hchange : JobChange x j s (sendEntry x (.alert j c v run n) rest s) := by
    refine ⟨fun k hk => ?_, hother, ?_⟩
    · rw [hwatch, watching_reportClass, if_neg hk]
    · rw [h, hlist]
      exact .tail fun k hk => if_neg (Ne.symm hk)
  refine ⟨hchange.distinct, fun hd hs => ?_⟩
  have hone : alertClasses j (s.session x).pendingList = [c] := by
    rw [h, alertClasses_alert_cons, alertClasses_of_distinct (h ▸ hd x)]
  obtain ⟨o, ho⟩ := (hs x j).owned (hone ▸ List.cons_ne_nil _ _)
  have hsent : watching j (sendEntry x (.alert j c v run n) rest s) =
      some (x, o.map fun w => { w with reported := c }) := by
    rw [hwatch, watching_reportClass, if_pos rfl, ho]
    rfl
  have only : ∀ {u : State} {w}, watching j u = some (x, w) → OnlyOf x j u := fun hw y w' hy => by
    rw [hw] at hy
    cases hy
    rfl
  refine hchange.alertLaw (only ho) (only hsent) hs ?_
  rw [hsent, hlist, alertClasses_of_distinct (h ▸ hd x)]
  cases o with
  | none => exact .unwatched
  | some w => exact .watched (Watch.Agrees.sent (hone ▸ (hs x j).watch w ho))

theorem keepsNotices_sendEntry {x : Port} {e : Entry} {rest : List Entry} {s : State}
    (h : (s.session x).pendingList = e :: rest) : KeepsNotices s (sendEntry x e rest s) := by
  cases e with
  | alert j c v run n => exact keepsNotices_sendAlert h
  | _ =>
    refine .modList (s := s) ?_
    rw [h]
    exact .tail fun _ _ => rfl

theorem keepsNotices_modPort (s : State) (p : Port) (f : PortState → PortState) :
    KeepsNotices s (s.modPort p f) := .of_records rfl rfl

theorem keepsNotices_resend (x : Port) (s : State) : KeepsNotices s (resend x s) := .modSession rfl

theorem keepsNotices_arbiter (p : Port) (s : State) : KeepsNotices s (arbiter p s).2 := by
  unfold arbiter
  cases (s.port p).fifo with
  | cons f rest => exact keepsNotices_modPort s p fun q => { q with fifo := rest }
  | nil =>
    cases ho : offer p s with
    | again n => exact keepsNotices_resend p s
    | fresh e rest => exact keepsNotices_sendEntry (pendingList_of_offer_fresh ho)
    | nothing => exact .refl s

theorem keepsNotices_askU (s : State) : KeepsNotices s (askU s) := by
  unfold askU
  cases s.txU with
  | some f => exact .refl s
  | none => exact (keepsNotices_arbiter .u s).trans (.of_records rfl rfl)

theorem keepsNotices_askS (s : State) : KeepsNotices s (askS s) := by
  have h := keepsNotices_arbiter .s s
  unfold askS
  rcases ha : arbiter .s s with ⟨f, s'⟩
  rw [ha] at h
  cases f <;> exact h.trans (.of_records rfl rfl)

theorem KeepsNotices.finish {s t : State} (h : KeepsNotices s t) : KeepsNotices s (finish t) :=
  (h.trans (keepsNotices_startStep t)).trans (keepsNotices_askU _)

/-- The notices in flight change, and the timer with them (09 R158). -/
theorem keepsNotices_retime {x : Port} {f : Session → Session} {s : State}
    (h : (f (s.session x)).pendingList = (s.session x).pendingList) :
    KeepsNotices s (setTimer x (s.modSession x f)) := .trans (.modSession h) (.modSession rfl)

theorem keepsNotices_noticeSent (x : Port) (f : Frame) (s : State) : KeepsNotices s (noticeSent x f s) := by
  unfold noticeSent
  split
  · exact keepsNotices_retime rfl
  · exact .refl s

theorem keepsNotices_endS (s : State) : KeepsNotices s (endS s) := by
  unfold endS
  cases s.txS.current with
  | none => exact .refl s
  | some o =>
    have h1 : KeepsNotices s { s with txS := { s.txS with current := none, filler := false } } :=
      .of_records rfl rfl
    simp only
    split
    · exact h1.trans (keepsNotices_noticeSent _ _ _)
    · exact .refl s

theorem keepsNotices_startExchange (s : State) : KeepsNotices s (startExchange s) := by
  have h : KeepsNotices s (select (endS s)) := (keepsNotices_endS s).trans (.of_records rfl rfl)
  unfold startExchange
  simp only
  split
  · exact h.trans (keepsNotices_askS _)
  · exact h

theorem keepsNotices_exchangeS (s : State) : KeepsNotices s (exchangeS s) := by
  unfold exchangeS
  simp only
  split <;> exact (keepsNotices_startExchange s).trans (.of_records rfl rfl)

end Sys2Proof.Machine
end

section
/-! SUPPORT. Every happening keeps the laws of pending lists and watches: the blocks of the commands,
arrivals, ports and timers, and so every step (05 R98, R99, 09 R154). -/

namespace Sys2Proof.Machine

/-! ### The blocks of the commands -/

/-- A block whose answer keeps the laws of pending lists and watches. -/
def BlockKeepsNotices (act : List Byte → State → Option Answer) : Prop :=
  ∀ args s a, act args s = some a → KeepsNotices s a.state

theorem ChangesNothing.keepsNotices {act : List Byte → State → Option Answer} (h : ChangesNothing act) :
    BlockKeepsNotices act := fun args s a ha => by
  rw [h args s a ha]
  exact .refl s

/-! A refusal leaves the state, so only what stands behind a block's last check matters. -/

theorem ringCreate_keepsNotices (x : Port) : BlockKeepsNotices (ringCreate x) := by
  intro args s a h
  unfold ringCreate at h
  split at h <;> cases h
  simp only
  iterate 6 (split; · exact .refl s)
  have h1 : ∀ free r v, KeepsNotices s ({ s with sampleFree := free }.putRing r v) :=
    fun _ _ _ => .of_records rfl rfl
  exact (h1 _ _ _).trans (bindSource_only _ _ _).keepsNotices

theorem ringDelete_keepsNotices (x : Port) : BlockKeepsNotices (ringDelete x) := by
  intro args s a h
  unfold ringDelete at h
  split at h <;> cases h
  simp only
  iterate 4 (split; · exact .refl s)
  exact (freeRing_only _ s).keepsNotices

theorem ringFlush_keepsNotices (x : Port) : BlockKeepsNotices (ringFlush x) := by
  intro args s a h
  unfold ringFlush at h
  split at h <;> cases h
  simp only
  iterate 3 (split; · exact .refl s)
  exact (keepsNotices_evictAll _ _ s).trans (putRing_only _ _ _).keepsNotices

theorem ringWrite_keepsNotices (x : Port) : BlockKeepsNotices (ringWrite x) := by
  intro args s a h
  unfold ringWrite at h
  split at h
  · split at h
    · cases h
    · split at h <;> cases h
      simp only
      iterate 5 (split; · exact .refl s)
      exact keepsNotices_writeSamples _ _ 0 s
  · cases h

theorem setBegin_keepsNotices (x : Port) : BlockKeepsNotices (setBegin x) := by
  intro args s a h
  unfold setBegin at h
  split at h <;> cases h
  simp only
  iterate 5 (split; · exact .refl s)
  have h1 : ∀ free c v, KeepsNotices s ({ s with coefFree := free }.putCoef c v) :=
    fun _ _ _ => .of_records rfl rfl
  exact (h1 _ _ _).trans (keepsNotices_putLoad x _ _)

theorem setData_keepsNotices (x : Port) : BlockKeepsNotices (setData x) := by
  intro args s a h
  unfold setData at h
  split at h
  · split at h
    · cases h
    · split at h <;> cases h
      simp only
      iterate 4 (split; · exact .refl s)
      split
      · have h1 : ∀ m, KeepsNotices s { s with coefMem := m } := fun _ => .of_records rfl rfl
        exact (h1 _).trans (keepsNotices_putLoad x _ _)
      · split <;> exact .refl s
  · cases h

theorem setEnd_keepsNotices (x : Port) : BlockKeepsNotices (setEnd x) := by
  intro args s a h
  unfold setEnd at h
  split at h <;> cases h
  simp only
  iterate 3 (split; · exact .refl s)
  split
  · exact (putCoef_only s _ _).keepsNotices.trans (keepsNotices_putLoad x _ _)
  · exact keepsNotices_putLoad x _ s

theorem setAbort_keepsNotices (x : Port) : BlockKeepsNotices (setAbort x) := by
  intro args s a h
  unfold setAbort at h
  split at h <;> cases h
  split
  · exact .refl s
  · exact (freeSet_only _ s).keepsNotices.trans (keepsNotices_putLoad x _ _)

theorem setDelete_keepsNotices (x : Port) : BlockKeepsNotices (setDelete x) := by
  intro args s a h
  unfold setDelete at h
  split at h <;> cases h
  simp only
  iterate 5 (split; · exact .refl s)
  exact (freeSet_only _ s).keepsNotices

theorem jobDefine_keepsNotices (x : Port) : BlockKeepsNotices (jobDefine x) := by
  intro args s a h
  unfold jobDefine at h
  split at h <;> cases h
  simp only
  split
  · exact .refl s
  split
  · exact .refl s
  rename_i hown
  split
  · exact .refl s
  split
  · rename_i hj
    exact keepsNotices_defineNew hj
  · rename_i b hj
    exact keepsNotices_redefine _ _ _ hj (defineOwner_some (hj ▸ hown)).1

/-- The job that the checks of 02 R27 find is the session's. -/
theorem ownedJob_owner {x : Port} {id : Byte} {s : State} {j : JobId} {b : Job}
    (h : ownedJob x id s = .ok (j, b)) : b.owner = x := by
  unfold ownedJob at h
  split at h
  · cases h
  · split at h
    · cases h
    · split at h <;> cases h
      exact not_not.mp ‹_›

theorem jobArm_keepsNotices (x : Port) : BlockKeepsNotices (jobArm x) := by
  intro args s a h
  unfold jobArm at h
  split at h <;> cases h
  simp only
  split
  · exact .refl s
  rename_i j b hj
  iterate 2 (split; · exact .refl s)
  exact .putJob (ownedJob_ok hj) rfl rfl

theorem jobStart_keepsNotices (x : Port) : BlockKeepsNotices (jobStart x) := by
  intro args s a h
  unfold jobStart at h
  split at h <;> cases h
  simp only
  split
  · exact .refl s
  rename_i j b hj
  iterate 2 (split; · exact .refl s)
  exact keepsNotices_fire _ _ (ownedJob_ok hj) rfl rfl

theorem jobCancel_keepsNotices (x : Port) : BlockKeepsNotices (jobCancel x) := by
  intro args s a h
  unfold jobCancel at h
  split at h <;> cases h
  simp only
  split
  · exact .refl s
  · rename_i j b hj
    exact (keepsNotices_abandon j b s).trans
      (.putJob ((job_abandon j j b s).trans (ownedJob_ok hj)) rfl rfl)

theorem jobDelete_keepsNotices (x : Port) : BlockKeepsNotices (jobDelete x) := by
  intro args s a h
  unfold jobDelete at h
  split at h <;> cases h
  split
  · exact .refl s
  · exact keepsNotices_deleteJob _ s

theorem jobWatch_keepsNotices (x : Port) : BlockKeepsNotices (jobWatch x) := by
  intro args s a h
  unfold jobWatch at h
  split at h <;> cases h
  simp only
  split
  · exact .refl s
  rename_i j b hj
  split
  · exact keepsNotices_putWatch (ownedJob_ok hj) (ownedJob_owner hj) nofun
  iterate 2 (split; · exact .refl s)
  exact keepsNotices_putWatch (ownedJob_ok hj) (ownedJob_owner hj) (by rintro _ ⟨⟩; rfl)

theorem fetchBlock_keepsNotices (x : Port) : BlockKeepsNotices (fetchBlock x) := by
  intro args s a h
  unfold fetchBlock at h
  split at h <;> cases h
  simp only
  split
  · exact .refl s
  · exact keepsNotices_removeResults x _ _ _ s

/-! ### The execution of a command (08 R143 to R147) -/

theorem keepsNotices_takeCommand (x : Port) (rest : List Command) (s : State) :
    KeepsNotices s (takeCommand x rest s) := by
  have h1 : KeepsNotices s (s.modSession x fun z => { z with queue := rest }) := .modSession rfl
  exact h1.trans (.of_records rfl rfl)

theorem keepsNotices_place (p : Port) (f : Frame) (s : State) : KeepsNotices s (place p f s) :=
  keepsNotices_modPort s p _

theorem keepsNotices_reply (x : Port) (f : Frame) (s : State) : KeepsNotices s (reply x f s) := by
  have h1 : KeepsNotices s (s.modSession x fun z => { z with cache := cacheReply f z.cache }) :=
    .modSession rfl
  exact h1.trans (keepsNotices_place x f _)

theorem keepsNotices_execute {x : Port} {code : Byte} {act : List Byte → State → Option Answer}
    (hact : BlockKeepsNotices act) {s t : State} (h : execute x code act s = some t) :
    KeepsNotices s t := by
  unfold execute at h
  split at h
  · split at h
    · simp only at h
      split at h <;> cases h
      · rename_i ha
        exact ((keepsNotices_takeCommand x _ s).trans (hact _ _ _ ha)).trans (keepsNotices_reply _ _ _)
      · exact (keepsNotices_takeCommand x _ s).trans (keepsNotices_reply _ _ _)
    · cases h
  · cases h

theorem keepsNotices_runCommand {act : List Byte → State → Option Answer} (hact : BlockKeepsNotices act)
    (x : Port) (code : Byte) (s : State) : KeepsNotices s (runCommand x code act s) := by
  unfold runCommand
  cases h : execute x code act s with
  | none => exact .refl s
  | some t => exact (keepsNotices_execute hact h).finish

theorem keepsNotices_badKind (x : Port) (s : State) : KeepsNotices s (badKind x s) := by
  unfold badKind
  cases nextCommand x s with
  | none => exact .refl s
  | some cr =>
    simp only
    split
    · exact .refl s
    · exact ((keepsNotices_takeCommand x cr.2 s).trans (keepsNotices_reply x _ _)).finish

theorem keepsNotices_bye (x : Port) (s : State) : KeepsNotices s (bye x s) := by
  unfold bye
  cases h : execute x 0x11 byeBlock s with
  | none => exact .refl s
  | some t =>
    have h1 := keepsNotices_execute byeBlock_changesNothing.keepsNotices h
    refine KeepsNotices.finish ?_
    split
    · exact h1.trans (keepsNotices_teardown x t)
    · exact h1

/-! ### Arrivals, bytes and timers (08 R133 to R141, 09 R160 to R163, 10 R168 to R173) -/

theorem keepsNotices_placeIfRoom (p : Port) (f : Frame) (s : State) :
    KeepsNotices s (placeIfRoom p f s) := by
  unfold placeIfRoom
  split
  · exact keepsNotices_place p f s
  · exact .refl s

theorem keepsNotices_arriveHello (x : Port) (f : Frame) (s : State) :
    KeepsNotices s (arriveHello x f s) := by
  have refused : ∀ st, KeepsNotices s (place x (replyFrame f.seq st codeHello []) s) :=
    fun st => keepsNotices_place x _ s
  have opened : ∀ timeout notify, KeepsNotices s (openSession x timeout notify (teardownIfOpen x s)) :=
    fun _ _ => (keepsNotices_teardownIfOpen x s).trans (.modSession rfl)
  unfold arriveHello
  split
  · unfold takeHello
    simp only
    split
    · iterate 3 (split; · exact refused _)
      exact (opened _ _).trans (keepsNotices_place x _ _)
    · exact refused _
  · exact .refl s

theorem keepsNotices_accept (x : Port) (f : Frame) (s : State) : KeepsNotices s (accept x f s) := by
  unfold accept
  simp only
  split
  · split
    · exact KeepsNotices.modSession (f := fun z => { z with
        queue := z.queue ++ [{ seq := f.seq, payload := f.payload }], expected := z.expected + 1 }) rfl
    · exact keepsNotices_placeIfRoom _ _ _
  · split
    · exact .refl s
    · split <;> exact keepsNotices_placeIfRoom _ _ _

theorem keepsNotices_arriveCommand (x : Port) (f : Frame) (s : State) :
    KeepsNotices s (arriveCommand x f s) := by
  unfold arriveCommand
  split
  · exact keepsNotices_arriveHello x f s
  · split
    · exact keepsNotices_accept x f s
    · exact keepsNotices_placeIfRoom _ _ _

theorem keepsNotices_arriveAck (x : Port) (f : Frame) (s : State) :
    KeepsNotices s (arriveAck x f s) := by
  unfold arriveAck
  split
  · cases younger f.seq (s.session x).inFlight with
    | none => exact .refl s
    | some rest => exact keepsNotices_retime rfl
  · exact .refl s

theorem keepsNotices_resolve (p : Port) (f : Frame) (good : Bool) (s : State) :
    KeepsNotices s (resolve p f good s) := by
  unfold resolve
  split
  · exact keepsNotices_modPort s p _
  · split
    · exact keepsNotices_arriveCommand p f s
    · split
      · exact keepsNotices_arriveAck p f s
      · split
        · exact .refl s
        · exact keepsNotices_modPort s p _

theorem keepsNotices_deliver (p : Port) (b : Byte) (s : State) : KeepsNotices s (deliver p b s) := by
  have h1 : KeepsNotices s (exchange p s) := by
    cases p
    · exact .refl s
    · exact keepsNotices_exchangeS s
  have h2 : KeepsNotices s (noteByteU p (exchange p s)) :=
    h1.trans (by cases p <;> exact .of_records rfl rfl)
  have h3 : KeepsNotices s ((noteByteU p (exchange p s)).modPort p fun q =>
      { q with rx := (((noteByteU p (exchange p s)).port p).rx.take b).1 }) :=
    h2.trans (keepsNotices_modPort _ p _)
  unfold deliver
  simp only
  split
  · exact h3
  · exact h3.trans (keepsNotices_modPort _ p _)
  · exact h3.trans (keepsNotices_resolve p _ _ _)

theorem keepsNotices_expire (x : Port) (s : State) : KeepsNotices s (expire x s) := by
  unfold expire
  split
  · exact keepsNotices_retime rfl
  · exact (keepsNotices_teardownIfOpen x s).trans (keepsNotices_modPort _ x _)

theorem keepsNotices_hear (p : Port) (b : Byte) (s : State) : KeepsNotices s (hear p b s) := by
  have h := (keepsNotices_deliver p b s).finish
  unfold hear
  simp only
  split
  · refine h.trans ?_
    rcases expireOverdue_cases p (finish (deliver p b s)) with ⟨-, he⟩ | ⟨-, he⟩ <;> rw [he]
    · exact (keepsNotices_expire p _).finish
    · exact .refl _
  · exact h

theorem keepsNotices_breakPartial (p : Port) (s : State) : KeepsNotices s (breakPartial p s) := by
  unfold breakPartial
  split <;> exact .of_records rfl rfl

theorem keepsNotices_linkReset (s : State) : KeepsNotices s (linkReset s) := by
  have h1 := (keepsNotices_modPort s .u fun q => { q with rx := .hunt }).trans
    (keepsNotices_teardownIfOpen .u _)
  exact h1.trans (.of_records rfl rfl)

theorem keepsNotices_timed {due : State → Option Nat} {act : State → State}
    (hact : ∀ u, KeepsNotices u (act u)) {s t : State} (h : timed due act s = .next t) :
    KeepsNotices s t := by
  rcases timed_cases due act s with ⟨n, -, -, hn⟩ | ⟨-, hn⟩ <;> rw [hn] at h <;> cases h
  · have h1 : KeepsNotices s (advanceTo n (endS s)) := (keepsNotices_endS s).trans (.of_records rfl rfl)
    exact (h1.trans (hact _)).finish
  · exact .refl s

/-! ### The sample port (01 R9, R12) -/

theorem keepsNotices_sampleArrival (c : ChannelId) (v : Word16) (s : State) :
    KeepsNotices s (sampleArrival c v s) := by
  have evicted : ∀ r g, KeepsNotices s (evictOverwritten r g s) := fun r g => by
    unfold evictOverwritten
    split
    · exact keepsNotices_evictAll _ _ s
    · exact .refl s
  unfold sampleArrival
  cases s.binding c with
  | none => exact .refl s
  | some r =>
    simp only
    cases s.ring r with
    | none => exact .refl s
    | some g =>
      simp only
      split
      · exact ((evicted r g).trans (keepsNotices_writeSample r g v _)).finish
      · exact .refl s

theorem keepsNotices_clockSample (s : State) (t : SpPeriod) : KeepsNotices s (clockSample s t) := by
  have word : ∀ l, KeepsNotices s { s with spWord := l } := fun l => .of_records rfl rfl
  unfold clockSample
  split
  · exact word _
  · split
    · exact .refl s
    · simp only
      split
      · exact word _
      · exact (word []).trans (keepsNotices_sampleArrival _ _ _)

/-! ### Every step -/

/-- A happening whose condition fails leaves the state (log 2). -/
theorem keepsNotices_ite {p : Prop} [Decidable p] {s t u : State} (hu : KeepsNotices s u)
    (h : (if p then Host.Outcome.next (finish u) else .next s) =
      Host.Outcome.next (φ := Fault) (ρ := Refusal) t) : KeepsNotices s t := by
  split at h <;> cases h
  · exact hu.finish
  · exact .refl s

theorem keepsNotices_runHappening {s t : State} (h : execSegmentEnd s = .next t ∨ execRunEnd s = .next t) :
    KeepsNotices s t := by
  unfold execSegmentEnd execRunEnd at h
  cases hf : inFlightRun s with
  | none => simp only [hf, or_self] at h; cases h; exact .refl s
  | some rb =>
    obtain ⟨run, b⟩ := rb
    have hb := (job_of_inFlightRun hf).2
    simp only [hf] at h
    rcases h with h | h
    · exact keepsNotices_ite (keepsNotices_segmentEnd hb) h
    · rw [← ite_not] at h
      exact keepsNotices_ite (keepsNotices_runEnd hb) h

/-- A device reset leaves no job and no entry (10 R181). -/
theorem keepsNotices_resetDevice (baud : Level) (lines : Lines) (s : State) :
    KeepsNotices s (resetDevice baud lines s) := by
  refine ⟨fun _ x => ?_, fun _ _ x j => ?_⟩
  · rw [session_resetDevice]
    exact List.Pairwise.nil
  · rw [session_resetDevice, watching, job_resetDevice]
    exact .elsewhere nofun

theorem keepsNotices_exec {i : Instr} {s t : State} (h : exec i s = .next t) : KeepsNotices s t := by
  have run : ∀ {act x code}, BlockKeepsNotices act →
      Host.Outcome.next (φ := Fault) (ρ := Refusal) (runCommand x code act s) = .next t →
      KeepsNotices s t := fun hact h => by
    cases h
    exact keepsNotices_runCommand hact _ _ s
  cases i with
  | rstn baud lines => cases h; exact keepsNotices_resetDevice baud lines s
  | sampleArrival periods => cases h; exact .foldl keepsNotices_clockSample periods s
  | segmentEnd => exact keepsNotices_runHappening (.inl h)
  | runEnd => exact keepsNotices_runHappening (.inr h)
  | frameResolution p last =>
    simp only [exec, execFrameResolution] at h
    split at h <;> cases h
    · exact keepsNotices_hear p last s
    · exact .refl s
  | frameLengthError p len => exact keepsNotices_ite (keepsNotices_deliver p len s) h
  | hello p last => exact keepsNotices_ite (keepsNotices_deliver p last s) h
  | badKind x => cases h; exact keepsNotices_badKind x s
  | bye x => cases h; exact keepsNotices_bye x s
  | status x => exact run (statusBlock_changesNothing x).keepsNotices h
  | ringCreate x => exact run (ringCreate_keepsNotices x) h
  | ringDelete x => exact run (ringDelete_keepsNotices x) h
  | ringFlush x => exact run (ringFlush_keepsNotices x) h
  | ringWrite x => exact run (ringWrite_keepsNotices x) h
  | ringRead x => exact run ringRead_changesNothing.keepsNotices h
  | ringQuery x => exact run ringQuery_changesNothing.keepsNotices h
  | setBegin x => exact run (setBegin_keepsNotices x) h
  | setData x => exact run (setData_keepsNotices x) h
  | setEnd x => exact run (setEnd_keepsNotices x) h
  | setAbort x => exact run (setAbort_keepsNotices x) h
  | setDelete x => exact run (setDelete_keepsNotices x) h
  | setQuery x => exact run setQuery_changesNothing.keepsNotices h
  | memQuery x => exact run memQuery_changesNothing.keepsNotices h
  | jobDefine x => exact run (jobDefine_keepsNotices x) h
  | jobArm x => exact run (jobArm_keepsNotices x) h
  | jobStart x => exact run (jobStart_keepsNotices x) h
  | jobCancel x => exact run (jobCancel_keepsNotices x) h
  | jobDelete x => exact run (jobDelete_keepsNotices x) h
  | jobQuery x => exact run jobQuery_changesNothing.keepsNotices h
  | jobWatch x => exact run (jobWatch_keepsNotices x) h
  | fetch x => exact run (fetchBlock_keepsNotices x) h
  | transmitArbiterChoice p =>
    cases p with
    | u => exact keepsNotices_ite (.refl s) h
    | s => cases h; exact (keepsNotices_startExchange s).finish
  | transmissionEnd p =>
    cases p with
    | u =>
      simp only [exec, execTransmissionEnd] at h
      split at h <;> cases h
      · rename_i f _
        have h1 : KeepsNotices s { s with txU := none } := .of_records rfl rfl
        exact (h1.trans (keepsNotices_noticeSent .u f _)).finish
      · exact .refl s
    | s => exact keepsNotices_ite (keepsNotices_endS s) h
  | noticeTimerExpiry x =>
    exact keepsNotices_timed (due := fun s => (s.session x).timer) (keepsNotices_expire x) h
  | framingError counted =>
    cases h
    have h1 : KeepsNotices s { breakPartial .u s with urx := .atSpace (spaceSince counted s) s.ms } :=
      (keepsNotices_breakPartial .u s).trans (.of_records rfl rfl)
    exact h1.finish
  | interByteGap => exact keepsNotices_timed (act := dropPartial .u) (fun _ => .of_records rfl rfl) h
  | linkReset => exact keepsNotices_timed keepsNotices_linkReset h
  | deselect =>
    have h1 : KeepsNotices s (deselect (endS s)) := (keepsNotices_endS s).trans (.of_records rfl rfl)
    exact keepsNotices_ite (h1.trans (keepsNotices_breakPartial .s _)) h
  | byteDelivered p b => cases h; exact keepsNotices_hear p b s

theorem keepsNotices_step {s t : State} (h : step s = .next t) : KeepsNotices s t := by
  unfold step at h
  split at h
  · rename_i c rest _
    have hpop : KeepsNotices s { s with pending := rest } := .of_records rfl rfl
    exact hpop.trans (keepsNotices_exec h)
  · unfold idle at h
    split at h
    · exact keepsNotices_exec h
    · cases h
      exact .of_records rfl rfl

/-- Settles O58: an entry joins a list only where none of its kind is pending for its job, and whatever
changes a watch or its session's ALERT entry for the job leaves the two in agreement. -/
theorem stepKeepsEntriesAndWatchesInRelation : Obligations.StepKeepsEntriesAndWatchesInRelation := by
  intro s t hd h
  have hkeeps := keepsNotices_step h
  refine ⟨hkeeps.distinct hd, fun howned hwatch => ?_⟩
  exact (alertLaw_iff t).mp (hkeeps.alerts hd ((alertLaw_iff s).mpr ⟨howned, hwatch⟩))

end Sys2Proof.Machine
end

section
/-! SUPPORT. The step on an empty queue, and the reset state with the laws that it meets (10 R181 and the
reset rule of each chapter). -/

namespace Sys2Proof.Machine

/-! ### The step on an empty queue -/

/-- Settles O2: the empty queue leaves the step to what `dueNow` names, else to the tick. -/
theorem emptyQueueTakesWhatIsDueOrTicks : Obligations.EmptyQueueTakesWhatIsDueOrTicks := by
  intro s hs
  have hidle : step s = idle s := by rw [step, hs]
  refine ⟨fun c hc => ?_, fun hn => ?_⟩
  · rw [hidle, idle, hc]
  · rw [hidle, idle, hn]
    rfl

/-! ### Device reset -/

theorem attn_resetDevice (baud : Level) (lines : Lines) (s : State) :
    attn (resetDevice baud lines s) = false := rfl

/-- Settles O5: the records of the reset part are those of its tables after RSTN, whatever stood before. -/
theorem deviceResetClearsThePart : Obligations.DeviceResetClearsThePart := by
  intro s baud lines
  refine ⟨resetDevice baud lines s, rfl, ring_resetDevice baud lines s, binding_resetDevice baud lines s, rfl,
    job_resetDevice baud lines s, cls_resetDevice baud lines s, rfl, coef_resetDevice baud lines s, rfl, rfl,
    session_resetDevice baud lines s, rfl, port_resetDevice baud lines s, rfl, rfl,
    attn_resetDevice baud lines s, rfl, rfl, fun hurx => ?_, fun hurx => ?_, rfl⟩
  all_goals simp only [resetDevice, State.afterReset, hurx]

/-! ### The reset state -/

@[simp] theorem ring_reset (r : RingId) : State.reset.ring r = none := Table.look_replicate none r

@[simp] theorem binding_reset (c : ChannelId) : State.reset.binding c = none := Table.look_replicate none c

@[simp] theorem job_reset (j : JobId) : State.reset.job j = none := Table.look_replicate none j

@[simp] theorem cls_reset (c : ClassId) : State.reset.cls c = [] := Table.look_replicate [] c

@[simp] theorem coef_reset (c : SetId) : State.reset.coef c = none := Table.look_replicate none c

@[simp] theorem session_reset (x : Port) : State.reset.session x = Session.closed := by cases x <;> rfl

@[simp] theorem port_reset (p : Port) : State.reset.port p = PortState.reset := by cases p <;> rfl

@[simp] theorem psu_reset : State.reset.psu = none := rfl

/-- Settles O4, record by record: tables of empty records, CLOSED sessions and silent ports. -/
theorem resetLeavesEveryBlockInItsResetState : Obligations.ResetLeavesEveryBlockInItsResetState := by
  refine ⟨ring_reset, binding_reset, rfl, job_reset, cls_reset, rfl, coef_reset, rfl, rfl, fun x => ?_, rfl,
    fun p => ?_, rfl, rfl, rfl, rfl⟩
  · rw [session_reset]
    exact ⟨rfl, rfl, rfl, rfl, rfl, rfl, rfl, rfl, rfl⟩
  · rw [port_reset]
    exact ⟨rfl, rfl, rfl⟩

/-! ### The laws at reset -/

theorem schedulerLaw_reset : SchedulerLaw State.reset := by
  constructor <;> simp [SchedulerSettled]

theorem armedLaw_reset : ArmedLaw State.reset := fun j b hb => by simp at hb

theorem referenceLaw_reset : ReferenceLaw State.reset := by
  constructor <;> simp [Session.closed]

theorem bindingLaw_reset : BindingLaw State.reset := fun c r => by simp

theorem windowLaw_reset : WindowLaw State.reset := by
  constructor <;> simp

theorem closedLaw_reset : ClosedLaw State.reset := fun x _ => by simp [Session.closed]

theorem heldLaw_reset : HeldLaw State.reset := by
  constructor <;> simp [Session.closed]

theorem bounded_reset : Bounded State.reset := by
  rw [bounded_iff]
  refine ⟨by decide, fun p => ?_, fun x => ?_⟩
  · simp [PortState.reset]
  · rw [session_reset]
    exact Session.within_closed

theorem sequenceLaw_reset : SequenceLaw State.reset := fun x => by
  rw [session_reset]
  exact ⟨chainTo_nil _, fun _ => ⟨rfl, rfl⟩⟩

theorem noticeSequenceLaw_reset : NoticeSequenceLaw State.reset := fun x => by
  rw [session_reset]
  exact ⟨chainTo_nil _, fun _ => rfl⟩

theorem timerLaw_reset : TimerLaw State.reset := fun x => by
  rw [session_reset]
  exact ⟨rfl, nofun, fun _ => rfl⟩

theorem entriesDistinct_reset : EntriesDistinct State.reset := fun x => by
  rw [session_reset]
  exact List.Pairwise.nil

theorem alertsOwned_reset : AlertsOwned State.reset := fun x j c v run n h => by
  simp [Session.closed] at h

theorem watchLaw_reset : WatchLaw State.reset := fun j b w hb => by simp at hb

theorem quiet_reset : Quiet State.reset := ⟨fun _ => cls_reset, fun _ => ⟨rfl, rfl⟩⟩

/-- Settles O6: each law in turn holds of a part without records. -/
theorem theLawsHoldAtReset : Obligations.TheLawsHoldAtReset :=
  ⟨schedulerLaw_reset, armedLaw_reset, referenceLaw_reset, bindingLaw_reset, windowLaw_reset, closedLaw_reset,
    extentLaw_afterReset _ _ _, heldLaw_reset, bounded_reset, sequenceLaw_reset, noticeSequenceLaw_reset,
    timerLaw_reset, entriesDistinct_reset, alertsOwned_reset, watchLaw_reset, quiet_reset, reset_memories_wf⟩

end Sys2Proof.Machine
end

section
/-! SUPPORT. What a notice unit offers (09 R156), and the transmit arbiter's choice (10 R180). -/

namespace Sys2Proof.Machine

/-! ### The offer (09 R156) -/

section
variable {x : Port} {s : State}

theorem offer_closed (h : (s.session x).isOpen = false) : offer x s = .nothing := by
  simp [offer, h]

/-- The notice offered is the first marked one (09 R156). -/
theorem offer_marked (ho : (s.session x).isOpen = true) {n : Notice}
    (hn : (s.session x).inFlight.find? Notice.marked = some n) : offer x s = .again n := by
  simp [offer, ho, hn]

theorem find?_marked_eq_none {l : List Notice} (h : ∀ m ∈ l, m.marked = false) :
    l.find? Notice.marked = none := by simpa using h

theorem offer_fresh (ho : (s.session x).isOpen = true)
    (hm : ∀ m ∈ (s.session x).inFlight, m.marked = false) (hl : (s.session x).inFlight.length < 4)
    {e : Entry} {rest : List Entry} (hp : (s.session x).pendingList = e :: rest) :
    offer x s = .fresh e rest := by
  have hroom : (s.session x).inFlight.length < Config.inFlightSize := hl
  simp [offer, ho, find?_marked_eq_none hm, hp, hroom]

/-- Without a marked notice, an empty pending list or 4 notices in flight leave nothing to offer. -/
theorem offer_nothing (hm : ∀ m ∈ (s.session x).inFlight, m.marked = false)
    (h : (s.session x).pendingList = [] ∨ 4 ≤ (s.session x).inFlight.length) : offer x s = .nothing := by
  have hfull : 4 ≤ (s.session x).inFlight.length → ¬ (s.session x).inFlight.length < Config.inFlightSize :=
    Nat.not_lt.mpr
  unfold offer
  rcases h with h | h
  · simp [find?_marked_eq_none hm, h]
  · cases hp : (s.session x).pendingList <;> simp [find?_marked_eq_none hm, hfull h, hp]

/-- When a notice unit offers a notice (09 R156). -/
theorem offer_ne_nothing_iff : offer x s ≠ .nothing ↔ (s.session x).isOpen = true ∧
    ((∃ n ∈ (s.session x).inFlight, n.marked = true) ∨
      ((s.session x).pendingList ≠ [] ∧ (s.session x).inFlight.length < 4)) := by
  by_cases ho : (s.session x).isOpen = true
  · by_cases hm : ∃ n ∈ (s.session x).inFlight, n.marked = true
    · obtain ⟨n, hn⟩ := Option.isSome_iff_exists.mp (List.find?_isSome.mpr hm)
      simp [offer_marked ho hn, ho, hm]
    · have hall : ∀ m ∈ (s.session x).inFlight, m.marked = false := by simpa using hm
      cases hp : (s.session x).pendingList with
      | nil => simp [offer_nothing hall (.inl hp), hm]
      | cons e rest =>
        by_cases hl : (s.session x).inFlight.length < 4
        · simp [offer_fresh ho hall hl hp, ho, hl]
        · simp [offer_nothing hall (.inr (Nat.not_lt.mp hl)), hm, hl]
  · simp [offer_closed (Bool.not_eq_true _ ▸ ho), ho]

end

/-! ### Sending (09 R157, R159) -/

/-- The first marked notice of a list is the one that is sent again (09 R159). -/
theorem unmarkFirst_append {pre post : List Notice} {n : Notice} (hpre : ∀ m ∈ pre, m.marked = false)
    (hn : n.marked = true) :
    unmarkFirst (pre ++ n :: post) = pre ++ { n with marked := false, sentAt := none } :: post := by
  induction pre with
  | nil => simp [unmarkFirst, hn]
  | cons m pre ih =>
    rw [List.forall_mem_cons] at hpre
    simp [unmarkFirst, hpre.1, ih hpre.2]

/-- An entry that is no ALERT reports no class (05 R98). -/
theorem reportClass_of_not_alert {e : Entry} (h : ∀ j c v n k, e ≠ .alert j c v n k) (s : State) :
    reportClass e s = s := by
  cases e with
  | alert j c v n k => exact absurd rfl (h j c v n k)
  | fault j r n => rfl
  | overrun j n => rfl
  | results => rfl

/-- The reported class of the job's watch becomes the class of the ALERT (05 R98). -/
theorem reportClass_alert {s : State} {j : JobId} {b : Job} {w : Watch} (c : Class) (v : Int) (n : Word16)
    (k : Nat) (hb : s.job j = some b) (hw : b.watch = some w) : reportClass (.alert j c v n k) s =
      s.putJob j (some { b with watch := some { w with reported := c } }) := by
  simp only [reportClass, hb, hw]

/-! ### The arbiter (10 R180) -/

section
variable {p : Port} {s : State}

theorem arbiter_reply {f : Frame} {rest : List Frame} (h : (s.port p).fifo = f :: rest) :
    arbiter p s = (some f, s.modPort p fun y => { y with fifo := rest }) := by
  simp only [arbiter, h]

theorem arbiter_again (h : (s.port p).fifo = []) {n : Notice} (ho : offer p s = .again n) :
    arbiter p s = (some n.frame, resend p s) := by
  simp only [arbiter, h, ho]

theorem arbiter_fresh (h : (s.port p).fifo = []) {e : Entry} {rest : List Entry}
    (ho : offer p s = .fresh e rest) :
    arbiter p s = (some (noticeFrame (s.session p) e), sendEntry p e rest s) := by
  simp only [arbiter, h, ho]

theorem arbiter_nothing (h : (s.port p).fifo = []) (ho : offer p s = .nothing) : arbiter p s = (none, s) := by
  simp only [arbiter, h, ho]

end

/-- Settles O7: the FIFO's head, else the offer of the notice unit decides. -/
theorem arbiterTakesReplyThenMarkedThenPending : Obligations.ArbiterTakesReplyThenMarkedThenPending := by
  intro p s
  refine ⟨fun f rest => arbiter_reply, fun pre n post hfifo hopen hl hpre hn => ?_,
    fun e rest hfifo hopen hm hl hp he => ?_, fun j c v n k rest b w hfifo hopen hm hl hp hb hw => ?_,
    fun hfifo h => ?_⟩
  · have hfind : (s.session p).inFlight.find? Notice.marked = some n :=
      List.find?_eq_some_iff_append.mpr ⟨hn, pre, post, hl, by simpa using hpre⟩
    rw [arbiter_again hfifo (offer_marked hopen hfind), resend, State.modSession, hl,
      unmarkFirst_append hpre hn]
    rfl
  · rw [arbiter_fresh hfifo (offer_fresh hopen hm hl hp), sendEntry, reportClass_of_not_alert he]
    rfl
  · rw [arbiter_fresh hfifo (offer_fresh hopen hm hl hp), sendEntry, reportClass_alert c v n k hb hw]
    rfl
  · refine arbiter_nothing hfifo ?_
    rcases h with hclosed | ⟨hm, h⟩
    · exact offer_closed hclosed
    · exact offer_nothing hm h

end Sys2Proof.Machine
end

section
/-! SUPPORT. The frame receiver byte by byte (10 R168, Table 10-1), and the end of a frame by its length or
its resolution (10 R169, R170; 09 R158). -/

namespace Sys2Proof.Machine

/-! ### A byte in each state of the receiver (10 R168) -/

/-- A byte that ends no frame moves the receiver, beside its port's exchange. -/
theorem exec_byteDelivered_of_take {p : Port} {b : Byte} {s : State} {rx : Receiver}
    (h : (s.port p).rx.take b = (rx, .nothing)) : exec (.byteDelivered p b) s =
      .next (finish ((noteByteU p (exchange p s)).modPort p fun y => { y with rx := rx })) := by
  have hack : completesAck p b s = false := completesAck_eq_false (by simp only [completes, h])
  have hdeliver : deliver p b s = (noteByteU p (exchange p s)).modPort p fun y => { y with rx := rx } := by
    simp only [deliver, (sends_byte p s).rx p, h]
  simp only [exec, execByteDelivered, hear_of_not_ack hack, hdeliver]

section
variable {k q n b : Byte} {l : List Byte}

theorem take_hunt_ignored (h : b ≠ 0xA5) : Receiver.hunt.take b = (.hunt, .nothing) := if_neg h

theorem take_len_payload (h0 : b ≠ 0) (h : b.toNat ≤ 248) :
    (Receiver.header [k, q]).take b = (.payload k q b [], .nothing) := by
  have hlen : ¬ Config.maxPayload < b.toNat := Nat.not_lt.mpr h
  simp only [Receiver.take, takeLen, if_neg hlen, if_neg h0]

theorem take_len_over (h : 248 < b.toNat) : (Receiver.header [k, q]).take b = (.hunt, .lengthError) := by
  have hlen : Config.maxPayload < b.toNat := h
  simp only [Receiver.take, takeLen, if_pos hlen]

theorem take_payload_more (h : l.length + 1 < n.toNat) :
    (Receiver.payload k q n l).take b = (.payload k q n (l ++ [b]), .nothing) := if_pos h

theorem take_payload_last (h : n.toNat ≤ l.length + 1) : (Receiver.payload k q n l).take b =
    (.check { kind := k, seq := q, payload := l ++ [b] } none, .nothing) := if_neg (Nat.not_lt.mpr h)

end

/-- Settles O38: what the receiver makes of the byte, state by state. -/
theorem receiverTakesEachByteInItsState : Obligations.ReceiverTakesEachByteInItsState := by
  intro s p b s1 becomes
  have of_take : ∀ {r rx : Receiver}, (s.port p).rx = r → r.take b = (rx, .nothing) → becomes rx :=
    fun hr ht => exec_byteDelivered_of_take (hr ▸ ht)
  refine ⟨fun hr hb => of_take hr (if_pos hb), fun hr hb => of_take hr (take_hunt_ignored hb),
    fun hr => of_take hr rfl, fun k hr => of_take hr rfl,
    fun k q hr => ⟨fun hb => of_take hr (hb ▸ rfl), fun h0 hb => of_take hr (take_len_payload h0 hb)⟩,
    fun k q n l hr => ⟨fun h => of_take hr (take_payload_more h), fun h => of_take hr (take_payload_last h)⟩,
    fun f hr => of_take hr rfl⟩

/-! ### A LEN byte above 248 (10 R168, R170) -/

/-- The partial frame is abandoned and counted. -/
theorem deliver_len_over {p : Port} {s : State} {k q len : Byte} (hr : (s.port p).rx = .header [k, q])
    (h : 248 < len.toNat) : deliver p len s = countLineError p (received p s) := by
  simp only [deliver, (sends_byte p s).rx p, hr, take_len_over h]
  rfl

theorem exec_frameLengthError {p : Port} {s : State} {k q len : Byte} (hr : (s.port p).rx = .header [k, q])
    (h : 248 < len.toNat) :
    exec (.frameLengthError p len) s = .next (finish (countLineError p (received p s))) ∧
      exec (.byteDelivered p len) s = exec (.frameLengthError p len) s := by
  have hbad : badLen p len s = true := by simp only [badLen, hr, take_len_over h]
  have hack : completesAck p len s = false :=
    completesAck_eq_false (by simp only [completes, hr, take_len_over h])
  simp only [exec, execFrameLengthError, execByteDelivered, hbad, if_true, hear_of_not_ack hack,
    deliver_len_over hr h, and_self]

/-! ### Acknowledging frames (09 R160) -/

theorem younger_isSome_iff {q : Byte} {l : List Notice} :
    (younger q l).isSome = true ↔ ∃ n ∈ l, n.frame.seq = q := by
  induction l with
  | nil => simp [younger]
  | cons m l ih =>
    by_cases hm : m.frame.seq = q
    · simp [younger, hm]
    · simp [younger, hm, ih]

/-- A frame acknowledges when it is an ACK without payload that names a notice in flight (09 R160). -/
theorem acknowledges_iff {x : Port} {f : Frame} {s : State} : acknowledges x f s = true ↔
    f.kind = kindAck ∧ f.payload = [] ∧ (s.session x).isOpen = true ∧
      ∃ n ∈ (s.session x).inFlight, n.frame.seq = f.seq := by
  simp only [acknowledges, Bool.and_eq_true, decide_eq_true_eq, List.isEmpty_iff, younger_isSome_iff, and_assoc]

theorem session_received (p x : Port) (s : State) :
    (received p s).session x = (exchange p s).session x := by
  cases p <;> rfl

theorem acknowledges_received (p : Port) (f : Frame) (s : State) :
    acknowledges p f (received p s) = acknowledges p f (exchange p s) := by
  simp only [acknowledges, session_received]

/-- An ACK with progress leaves a retry count of 0 (09 R160). -/
theorem retry_arriveAck {x : Port} {f : Frame} {s : State} (h : acknowledges x f s = true) :
    ((arriveAck x f s).session x).retry = 0 := by
  simp only [acknowledges, Bool.and_eq_true, decide_eq_true_eq] at h
  obtain ⟨⟨⟨-, hpayload⟩, hopen⟩, hyounger⟩ := h
  obtain ⟨rest, hrest⟩ := Option.isSome_iff_exists.mp hyounger
  simp only [arriveAck, hpayload, hopen, and_self, if_true, hrest, setTimer_modSession,
    State.session_modSession]

/-! ### What the end of a happening leaves of a session -/

theorem Work.retry {P : Port → Prop} {s t : State} (h : Work P s t) (y : Port) :
    (t.session y).retry = (s.session y).retry :=
  (congrArg Session.retry (h.link y) : (t.session y).link.retry = (s.session y).link.retry)

theorem retry_sendEntry (x y : Port) (e : Entry) (rest : List Entry) (s : State) :
    ((sendEntry x e rest s).session y).retry = (s.session y).retry := by
  have hreport := (work_reportClass (P := fun _ => True) e s).retry
  rw [sendEntry, State.session_modSession]
  split
  · rename_i hy
    rw [hy]
    exact hreport x
  · exact hreport y

theorem retry_arbiter (p y : Port) (s : State) :
    (((arbiter p s).2).session y).retry = (s.session y).retry := by
  unfold arbiter
  cases (s.port p).fifo with
  | cons f rest => rfl
  | nil =>
    cases offer p s with
    | again n =>
      simp only [resend, State.session_modSession]
      split
      · rename_i hy
        rw [hy]
      · rfl
    | fresh e rest => exact retry_sendEntry p y e rest s
    | nothing => rfl

/-- Neither the start step nor port U's asking changes a retry count (09 R157, R159). -/
theorem retry_finish (y : Port) (s : State) : ((finish s).session y).retry = (s.session y).retry := by
  have hstart : ((startStep s).session y).retry = (s.session y).retry :=
    (work_startStep (P := fun _ => True) s).retry y
  rw [← hstart, finish, askU]
  cases (startStep s).txU with
  | some f => rfl
  | none => exact retry_arbiter .u y (startStep s)

/-- An expiry at a retry count of 0 marks, and leaves a count of 1 (09 R162). -/
theorem expire_first {x : Port} {s : State} (h : (s.session x).retry = 0) : expire x s =
    s.modSession x fun z =>
      let l := z.inFlight.map fun n =>
        if beingSent x n s then n else { n with marked := true, sentAt := none }
      { z with inFlight := l, retry := 1, timer := Session.timerLaw { z with inFlight := l } } := by
  have hfew : (s.session x).retry < Config.maxRetries := by rw [h]; decide
  rw [expire, if_pos hfew, markAll_eq]
  simp only [State.modSession, h]

/-! ### The resolution of a frame (10 R169, Table 10-2) -/

section
variable {p : Port} {f : Frame} {s : State}

theorem resolve_bad : resolve p f false s = countLineError p s := rfl

theorem resolve_unknown (h : f.kind ∉ [kindCommand, kindReply, kindNotice, kindAck]) :
    resolve p f true s = countLineError p s := by
  simp only [List.mem_cons, List.not_mem_nil, or_false, not_or] at h
  obtain ⟨hcommand, hreply, hnotice, hack⟩ := h
  have hdropped : ¬ (f.kind = kindReply ∨ f.kind = kindNotice) := not_or.mpr ⟨hreply, hnotice⟩
  rw [resolve, if_neg (not_not.mpr rfl), if_neg hcommand, if_neg hack, if_neg hdropped]
  rfl

theorem resolve_dropped (h : f.kind = 0x02 ∨ f.kind = 0x03) : resolve p f true s = s := by
  rcases h with h | h <;> simp [resolve, h, kindCommand, kindAck, kindReply, kindNotice]

theorem resolve_command (h : f.kind = 0x01) : resolve p f true s = arriveCommand p f s := by
  simp [resolve, h, kindCommand]

theorem resolve_ack (h : f.kind = 0x04) : resolve p f true s = arriveAck p f s := by
  simp [resolve, h, kindCommand, kindAck]

end

section
variable {p : Port} {f : Frame} {lo last : Byte} {s : State} (hr : (s.port p).rx = .check f (some lo))
include hr

theorem completes_check : completes p last s =
    some (f, decide (lo.toNat + 256 * last.toNat = (crc16 f.covered).toNat)) := by
  simp only [completes, hr, Receiver.take, leNat_pair]

/-- The second check byte of a frame is heard, whichever command delivers it (log 23). -/
theorem exec_frameResolution : exec (.frameResolution p last) s = .next (hear p last s) := by
  simp only [exec, execFrameResolution, completes_check hr, Option.isSome_some, if_true]

theorem completesAck_check : completesAck p last s =
    (decide (lo.toNat + 256 * last.toNat = (crc16 f.covered).toNat) && acknowledges p f (received p s)) := by
  simp only [completesAck, completes_check hr, acknowledges_received]

/-- A frame that acknowledges nothing ends with its resolution (10 R169). -/
theorem exec_frameResolution_of_not_ack (h : completesAck p last s = false) :
    exec (.frameResolution p last) s = .next (finish
      (resolve p f (decide (lo.toNat + 256 * last.toNat = (crc16 f.covered).toNat)) (received p s))) := by
  rw [exec_frameResolution hr, hear_of_not_ack h, deliver_check last hr, leNat_pair]

theorem exec_frameResolution_bad (h : ¬ lo.toNat + 256 * last.toNat = (crc16 f.covered).toNat) :
    exec (.frameResolution p last) s = .next (finish (countLineError p (received p s))) := by
  rw [exec_frameResolution_of_not_ack hr (by rw [completesAck_check hr, decide_eq_false h, Bool.false_and]),
    decide_eq_false h, resolve_bad]

variable (hgood : lo.toNat + 256 * last.toNat = (crc16 f.covered).toNat)
include hgood

/-- A good frame that makes no progress as an ACK ends with what its kind calls for. -/
theorem exec_frameResolution_good (h : acknowledges p f (received p s) = false) :
    exec (.frameResolution p last) s = .next (finish (resolve p f true (received p s))) := by
  rw [exec_frameResolution_of_not_ack hr (by rw [completesAck_check hr, h, Bool.and_false]),
    decide_eq_true hgood]

theorem exec_frameResolution_other (h : f.kind ≠ 0x04) :
    exec (.frameResolution p last) s = .next (finish (resolve p f true (received p s))) :=
  exec_frameResolution_good hr hgood (Bool.eq_false_iff.mpr fun ha => h (acknowledges_iff.mp ha).1)

/-- A good ACK with progress is followed by the expiry of a timer that is overdue (09 R158). -/
theorem exec_frameResolution_ack (h : acknowledges p f (received p s) = true) :
    exec (.frameResolution p last) s =
      .next (expireOverdue p (finish (arriveAck p f (received p s)))) := by
  have hack : completesAck p last s = true := by
    rw [completesAck_check hr, decide_eq_true hgood, h, Bool.and_self]
  rw [exec_frameResolution hr, hear, if_pos hack, deliver_check last hr, leNat_pair, decide_eq_true hgood,
    resolve_ack (acknowledges_iff.mp h).1]

/-- A good ACK ends with its resolution unless it makes progress and leaves an overdue timer. -/
theorem exec_frameResolution_ack_quiet (hk : f.kind = 0x04)
    (h : ∀ d, ((finish (arriveAck p f (received p s))).session p).timer = some d →
      (finish (arriveAck p f (received p s))).ms < d) :
    exec (.frameResolution p last) s = .next (finish (arriveAck p f (received p s))) := by
  cases ha : acknowledges p f (received p s) with
  | false => rw [exec_frameResolution_good hr hgood ha, resolve_ack hk]
  | true =>
    rw [exec_frameResolution_ack hr hgood ha]
    rcases expireOverdue_cases p (finish (arriveAck p f (received p s))) with ⟨⟨d, hd, hle⟩, -⟩ | ⟨-, heq⟩
    · exact absurd (h d hd) (Nat.not_lt.mpr hle)
    · rw [heq]

/-- A good ACK that leaves an overdue timer marks the notices in flight (09 R158, R162). -/
theorem exec_frameResolution_ack_overdue (h : acknowledges p f (received p s) = true) {d : Nat}
    (hd : ((finish (arriveAck p f (received p s))).session p).timer = some d)
    (hle : d ≤ (finish (arriveAck p f (received p s))).ms) :
    exec (.frameResolution p last) s =
      .next (finish (expire p (finish (arriveAck p f (received p s))))) := by
  rw [exec_frameResolution_ack hr hgood h, expireOverdue, hd]
  simp only [if_pos hle]

end

/-- Settles O40: the LEN byte's arm, and the last check byte by what its frame's check and kind call for. -/
theorem framesEndByLengthErrorOrResolution : Obligations.FramesEndByLengthErrorOrResolution := by
  refine ⟨fun s p k q len hr hlen => exec_frameLengthError hr hlen, fun s p f lo last hr => ?_⟩
  refine ⟨exec_frameResolution_bad hr, fun hgood hk => ?_, fun hgood hk => ?_, fun hgood hk => ?_,
    (exec_frameResolution hr).symm, fun hgood hk => ⟨fun hn => ?_, fun hd => ?_, fun d hd hlt => ?_,
      fun d hprogress hd hle => ?_⟩⟩
  · rw [exec_frameResolution_other hr hgood (fun h => hk (by simp [h])), resolve_unknown hk]
  · rw [exec_frameResolution_other hr hgood (by rcases hk with hk | hk <;> rw [hk] <;> decide),
      resolve_dropped hk]
  · rw [exec_frameResolution_other hr hgood (by rw [hk]; decide), resolve_command hk]
  · have hno : acknowledges p f (received p s) = false :=
      Bool.eq_false_iff.mpr fun ha => hn (acknowledges_iff.mp ha).2
    rw [exec_frameResolution_good hr hgood hno, resolve_ack hk]
  · exact exec_frameResolution_ack_quiet hr hgood hk fun d h => by rw [hd] at h; cases h
  · exact exec_frameResolution_ack_quiet hr hgood hk fun e h => by rw [hd] at h; cases h; exact hlt
  · have hack : acknowledges p f (received p s) = true := acknowledges_iff.mpr ⟨hk, hprogress⟩
    have hretry := (retry_finish p _).trans (retry_arriveAck hack)
    rw [exec_frameResolution_ack_overdue hr hgood hack hd hle, expire_first hretry]
    rfl

end Sys2Proof.Machine
end

section
/-! SUPPORT. The transmitters: what port S asks for and exchanges, what SDO and ATTN show (10 R174 to R180,
09 R156). -/

namespace Sys2Proof.Machine

/-! ### The arbiter and the select window -/

/-- A select window has no part in the arbiter's choice. -/
theorem arbiter_select (p : Port) (s : State) :
    arbiter p (select s) = ((arbiter p s).1, select (arbiter p s).2) := by
  have hreport : ∀ e, reportClass e (select s) = select (reportClass e s) := fun e => by
    cases e with
    | alert j c v n k =>
      have hjob : (select s).job j = s.job j := rfl
      cases hj : s.job j with
      | none => simp only [reportClass, hjob, hj]
      | some b =>
        cases hw : b.watch with
        | none => simp only [reportClass, hjob, hj, hw]
        | some w =>
          simp only [reportClass, hjob, hj, hw]
          rfl
    | fault j r n => rfl
    | overrun j n => rfl
    | results => rfl
  have hport : (select s).port p = s.port p := rfl
  have hoffer : offer p (select s) = offer p s := rfl
  unfold arbiter
  rw [hport, hoffer]
  cases (s.port p).fifo with
  | cons f rest => rfl
  | nil =>
    cases offer p s with
    | again n => rfl
    | fresh e rest =>
      simp only [sendEntry, hreport]
      rfl
    | nothing => rfl

/-! ### The start of an exchange (10 R177, R180) -/

/-- An exchange with a byte to present asks nothing: it only opens the window (10 R177). -/
theorem startExchange_presented {s : State} (h : (∃ o, s.txS.current = some o ∧ o.position < o.frame.size) ∨
    (s.txS.current = none ∧ s.txS.filler = true)) : startExchange s = select s := by
  rcases h with ⟨o, hc, ho⟩ | ⟨hc, hf⟩
  · exact startExchange_current hc ho
  · exact startExchange_filler hc hf

section
variable {s s' : State} (hc : s.txS.current = none) (hf : s.txS.filler = false)
include hc hf

/-- The frame that the arbiter gives becomes the current one. -/
theorem startExchange_given {f : Frame} (ha : arbiter .s s = (some f, s')) :
    startExchange s = { s' with txS :=
      { selected := true, current := some { frame := f, position := 0 }, filler := false } } := by
  rw [startExchange_ask hc hf, askS, arbiter_select, ha]
  rfl

/-- With nothing given the filler byte is presented. -/
theorem startExchange_nothing (ha : arbiter .s s = (none, s')) :
    startExchange s = { s with txS := { selected := true, current := none, filler := true } } := by
  obtain ⟨-, -, hsame⟩ := arbiter_none (congrArg Prod.fst ha)
  rw [ha] at hsame
  rw [startExchange_ask hc hf, askS, arbiter_select, ha, ← hsame]
  rfl

end

/-! ### The end of an exchange (10 R175) -/

/-- The byte of the current frame counts as sent (10 R175). -/
theorem exchangeS_of_current {s s1 : State} {o : Outbound} (h : startExchange s = s1)
    (hc : s1.txS.current = some o) : exchangeS s = { s1 with txS :=
      { s1.txS with current := some { o with position := o.position + 1 }, filler := false } } := by
  simp only [exchangeS, h, hc]

/-- The filler byte is over (10 R177). -/
theorem exchangeS_of_filler {s s1 : State} (h : startExchange s = s1) (hc : s1.txS.current = none) :
    exchangeS s = { s1 with txS := { s1.txS with current := none, filler := false } } := by
  simp only [exchangeS, h, hc]

/-! ### SDO and ATTN (10 R175, R177, R178) -/

theorem Frame.length_bytes (f : Frame) : f.bytes.length = f.size := by
  simp [Frame.bytes, Frame.covered, Frame.size, leBytes_two]

/-- The byte that SDO presents is one of the current frame that is unsent, or the filler byte. -/
theorem sdoByte_eq_some {s : State} {b : Byte} (h : sdoByte s = some b) :
    (∃ o, s.txS.current = some o ∧ o.position < o.frame.size) ∨
      (s.txS.current = none ∧ s.txS.filler = true) := by
  unfold sdoByte at h
  split at h
  · split at h
    · rename_i o hc
      obtain ⟨hlt, -⟩ := List.getElem?_eq_some_iff.mp h
      exact .inl ⟨o, hc, o.frame.length_bytes ▸ hlt⟩
    · rename_i hc
      split at h
      · exact .inr ⟨hc, ‹_›⟩
      · cases h
  · cases h

theorem sdoByte_unselected {s : State} (h : s.txS.selected = false) : sdoByte s = none := by
  simp [sdoByte, h]

/-- A byte that SSEL cut short is presented again in the next window (10 R175). -/
theorem sdoByte_startExchange_deselect {s : State} {b : Byte} (hs : s.txS.selected = true)
    (h : sdoByte s = some b) : sdoByte (startExchange (deselect s)) = some b := by
  have hpresented := sdoByte_eq_some h
  have hstart : startExchange (deselect s) = select (deselect s) := startExchange_presented hpresented
  have htx : (select (deselect s)).txS = s.txS := by
    simp only [select, deselect, ← hs]
  rw [hstart, sdoByte, htx]
  exact h

/-- When ATTN is high (10 R178). -/
theorem attn_iff (s : State) : attn s = true ↔
    (s.port .s).fifo ≠ [] ∨ (∃ o, s.txS.current = some o ∧ o.position < o.frame.size) ∨
      offer .s s ≠ .nothing := by
  have hcurrent : (match s.txS.current with | some o => decide (o.position < o.frame.size) | none => false) =
      true ↔ ∃ o, s.txS.current = some o ∧ o.position < o.frame.size := by
    cases s.txS.current <;> simp
  rw [attn, Bool.or_eq_true, Bool.or_eq_true, or_assoc, bne_iff_ne]
  refine or_congr ?_ (or_congr hcurrent Iff.rfl)
  simp

/-! ### The commands and the statement -/

theorem txU_startStep (s : State) : (startStep s).txU = s.txU := by
  unfold startStep
  cases s.psu with
  | some run => rfl
  | none =>
    cases nextToRun s with
    | none => rfl
    | some t =>
      simp only [startJob]
      cases s.job t.2 with
      | none => rfl
      | some b =>
        simp only
        cases runOf t.2 b <;> rfl

/-- An IDLE port U begins what the arbiter gives (10 R180). -/
theorem exec_transmitArbiterChoice_u {s : State} (h : s.txU = none) : exec (.transmitArbiterChoice .u) s =
    .next { (arbiter .u (startStep s)).2 with txU := (arbiter .u (startStep s)).1 } := by
  have hidle : (startStep s).txU = none := (txU_startStep s).trans h
  simp only [exec, execTransmitArbiterChoice, h, Option.isNone_none, if_true, finish, askU, hidle]

/-- The command for port S is the start of an exchange (log 7). -/
theorem exec_transmitArbiterChoice_s {s s1 : State} (h : startExchange s = s1) :
    exec (.transmitArbiterChoice .s) s = .next (finish s1) := by
  rw [← h]
  rfl

/-- Settles O39: each start of an exchange, its end, and what the lines show. -/
theorem transmittersAskAndPortSExchanges : Obligations.TransmittersAskAndPortSExchanges := by
  refine ⟨fun s => ⟨fun o hc ho => ?_, fun hc hf => ?_, fun f s' hc hf ha => ?_, fun s' hc hf ha => ?_⟩,
    fun s => ⟨exec_transmitArbiterChoice_u, fun f s' hc hf ha => ?_, fun s' hc hf ha => ?_, fun h => ?_⟩,
    fun s b hs h => ⟨sdoByte_unselected rfl, sdoByte_startExchange_deselect hs h⟩,
    fun s => ⟨sdoByte_unselected, fun o hs hc => ?_, fun hs hc hf => ?_⟩, fun s => ?_⟩
  · exact exchangeS_of_current (startExchange_current hc ho) hc
  · exact exchangeS_of_filler (startExchange_filler hc hf) hc
  · exact exchangeS_of_current (startExchange_given hc hf ha) rfl
  · exact exchangeS_of_filler (startExchange_nothing hc hf ha) rfl
  · exact exec_transmitArbiterChoice_s (startExchange_given hc hf ha)
  · exact exec_transmitArbiterChoice_s (startExchange_nothing hc hf ha)
  · exact exec_transmitArbiterChoice_s (startExchange_presented h)
  · simp only [sdoByte, hs, hc, if_true]
  · simp only [sdoByte, hs, hc, hf, if_true]
  · rw [attn_iff, offer_ne_nothing_iff]
    rfl

end Sys2Proof.Machine
end

section
/-! SUPPORT. The link conditions: framing error, deselect, inter-byte gap and link reset (10 R171 to R173,
R175, R176). -/

namespace Sys2Proof.Machine

/-! ### The discard of a partial frame (10 R170, R171) -/

theorem breakPartial_partial {p : Port} {s : State} (h : (s.port p).rx ≠ .hunt) :
    breakPartial p s = countLineError p (s.modPort p fun y => { y with rx := .hunt }) :=
  if_pos (decide_eq_true h)

theorem breakPartial_hunt {p : Port} {s : State} (h : (s.port p).rx = .hunt) : breakPartial p s = s :=
  if_neg fun hp => (of_decide_eq_true hp : (s.port p).rx ≠ .hunt) h

/-- SSEL rises in an open window (10 R175, R176). -/
theorem exec_deselect {s : State} (h : s.txS.selected = true) :
    exec .deselect s = .next (finish (breakPartial .s (deselect (endS s)))) := if_pos h

/-! ### Timed happenings (log 4, log 7) -/

/-- A timed happening whose count has come, or comes in quiet, takes place at that count. -/
theorem timed_taken {due : State → Option Nat} {act : State → State} {s : State} {t : Nat}
    (hd : due (endS s) = some t) (hq : quietUntil t (endS s) = true) :
    timed due act s = .next (finish (act { endS s with ms := max s.ms t })) := by
  obtain ⟨hms, -⟩ := endS_leaves s
  simp only [timed, hd, if_pos hq, advanceTo, hms]

theorem timed_not_due {due : State → Option Nat} {act : State → State} {s : State}
    (hd : due (endS s) = none) : timed due act s = .next s := by
  simp only [timed, hd]

/-- The gap limit of a partial frame falls due 6 counts after its last byte (10 R172, R181). -/
theorem gapDue_partial {s : State} (h : (s.port .u).rx ≠ .hunt) : gapDue s = some (s.lastByteAt + 6) := by
  unfold gapDue
  split
  · rename_i hr
    exact absurd hr h
  · rfl

/-- Settles O44: a partial frame is discarded and counted by each condition, after the end of a transmission
where the condition waits for one. -/
theorem linkConditionsDiscardAPartialFrame : Obligations.LinkConditionsDiscardAPartialFrame := by
  refine ⟨fun s => ⟨fun counted => ?_, fun hs => ?_, fun hs => ?_⟩, fun s hr => ?_⟩
  · intro since
    have hexec : exec (.framingError counted) s =
        .next (finish { breakPartial .u s with urx := .atSpace since s.ms }) := rfl
    refine ⟨fun hr => ?_, fun hr => ?_⟩
    · rw [hexec, breakPartial_partial hr]
    · rw [hexec, breakPartial_hunt hr]
  · exact if_neg (Bool.eq_false_iff.mp hs)
  · intro e s1
    have hrx : (s1.port .s).rx = (s.port .s).rx := (sends_endS s).rx .s
    refine ⟨fun hr => ?_, fun hr => ?_⟩
    · exact (exec_deselect hs).trans (by rw [breakPartial_partial (s := deselect e) (hrx ▸ hr)]; rfl)
    · exact (exec_deselect hs).trans (by rw [breakPartial_hunt (s := deselect e) (hrx.trans hr)]; rfl)
  · intro e h
    obtain ⟨hms, -⟩ := endS_leaves s
    have hdue : gapDue e = some (s.lastByteAt + 6) := (gapDue_endS s).trans (gapDue_partial hr)
    have hquiet : quietUntil (s.lastByteAt + 6) e = true :=
      quietUntil_of (h.imp (fun h => hms ▸ h) fun htimer => ⟨htimer, fun t ht => by
        rw [hdue] at ht
        cases ht
        exact le_rfl⟩)
    exact timed_taken hdue hquiet

/-! ### The link reset (10 R173) -/

/-- The end of a transmission on port S leaves what port U makes of URX. -/
theorem urx_endS (s : State) : (endS s).urx = s.urx := by
  unfold endS
  cases s.txS.current with
  | none => rfl
  | some o =>
    simp only [noticeSent_eq]
    split
    · split <;> rfl
    · rfl

theorem breakDue_endS (s : State) : breakDue (endS s) = breakDue s := by
  simp only [breakDue, urx_endS]

/-- Settles O45: the break falls due 10 counts after URX went to space, and only while it is known there. -/
theorem linkResetTearsDownSessionU : Obligations.LinkResetTearsDownSessionU := by
  refine fun s => ⟨fun since seen hurx => ?_, fun h => ?_⟩
  · intro e h s1 s2
    obtain ⟨hms, -⟩ := endS_leaves s
    have hdue : breakDue e = some (since + 10) := by
      rw [breakDue_endS, breakDue, hurx]
    have hquiet : quietUntil (since + 10) e = true :=
      quietUntil_of (h.imp (fun h => hms ▸ h) fun ⟨htimer, hgap⟩ => ⟨htimer, by rwa [gapDue_endS]⟩)
    have hopen : (s1.session .u).isOpen = (s.session .u).isOpen := (sends_endS s).isOpen .u
    have hteardown : teardownIfOpen .u s1 = s2 := by rw [teardownIfOpen, hopen]
    have hreset : linkReset { e with ms := max s.ms (since + 10) } =
        { s2.modPort .u (fun y => { y with fifo := [] }) with urx := .broken s1.ms } := by
      rw [← hteardown]
      rfl
    exact (timed_taken hdue hquiet).trans (by rw [hreset])
  · have hdue : breakDue (endS s) = none := by
      rw [breakDue_endS, breakDue]
      rcases h with ⟨seen, h⟩ | h <;> rw [h]
    exact timed_not_due hdue

end Sys2Proof.Machine
end

section
/-! SUPPORT. Commands that reach no block: a payload of the wrong length and an unknown code (11 R185), and the
session served next (08 R144). -/

namespace Sys2Proof.Machine

/-! ### Blocks with a fixed argument length (11 Table 11-3) -/

/-- A block answers only on `n` argument bytes (11 R185). -/
def TakesBytes (n : Nat) (act : List Byte → State → Option Answer) : Prop :=
  ∀ args s, args.length ≠ n → act args s = none

theorem takesBytes_byeBlock : TakesBytes 0 byeBlock := by
  intro args s h; unfold byeBlock; split; exacts [absurd rfl h, rfl]

theorem takesBytes_statusBlock (x : Port) : TakesBytes 0 (statusBlock x) := by
  intro args s h; unfold statusBlock; split; exacts [absurd rfl h, rfl]

theorem takesBytes_ringCreate (x : Port) : TakesBytes 4 (ringCreate x) := by
  intro args s h; unfold ringCreate; split; exacts [absurd rfl h, rfl]

theorem takesBytes_ringDelete (x : Port) : TakesBytes 1 (ringDelete x) := by
  intro args s h; unfold ringDelete; split; exacts [absurd rfl h, rfl]

theorem takesBytes_ringFlush (x : Port) : TakesBytes 1 (ringFlush x) := by
  intro args s h; unfold ringFlush; split; exacts [absurd rfl h, rfl]

theorem takesBytes_ringRead : TakesBytes 8 ringRead := by
  intro args s h; unfold ringRead; split; exacts [absurd rfl h, rfl]

theorem takesBytes_ringQuery : TakesBytes 1 ringQuery := by
  intro args s h; unfold ringQuery; split; exacts [absurd rfl h, rfl]

theorem takesBytes_setBegin (x : Port) : TakesBytes 3 (setBegin x) := by
  intro args s h; unfold setBegin; split; exacts [absurd rfl h, rfl]

theorem takesBytes_setEnd (x : Port) : TakesBytes 2 (setEnd x) := by
  intro args s h; unfold setEnd; split; exacts [absurd rfl h, rfl]

theorem takesBytes_setAbort (x : Port) : TakesBytes 0 (setAbort x) := by
  intro args s h; unfold setAbort; split; exacts [absurd rfl h, rfl]

theorem takesBytes_setDelete (x : Port) : TakesBytes 1 (setDelete x) := by
  intro args s h; unfold setDelete; split; exacts [absurd rfl h, rfl]

theorem takesBytes_setQuery : TakesBytes 1 setQuery := by
  intro args s h; unfold setQuery; split; exacts [absurd rfl h, rfl]

theorem takesBytes_memQuery : TakesBytes 0 memQuery := by
  intro args s h; unfold memQuery; split; exacts [absurd rfl h, rfl]

theorem takesBytes_jobDefine (x : Port) : TakesBytes 17 (jobDefine x) := by
  intro args s h; unfold jobDefine; split; exacts [absurd rfl h, rfl]

theorem takesBytes_jobArm (x : Port) : TakesBytes 1 (jobArm x) := by
  intro args s h; unfold jobArm; split; exacts [absurd rfl h, rfl]

theorem takesBytes_jobStart (x : Port) : TakesBytes 1 (jobStart x) := by
  intro args s h; unfold jobStart; split; exacts [absurd rfl h, rfl]

theorem takesBytes_jobCancel (x : Port) : TakesBytes 1 (jobCancel x) := by
  intro args s h; unfold jobCancel; split; exacts [absurd rfl h, rfl]

theorem takesBytes_jobDelete (x : Port) : TakesBytes 1 (jobDelete x) := by
  intro args s h; unfold jobDelete; split; exacts [absurd rfl h, rfl]

theorem takesBytes_jobQuery : TakesBytes 1 jobQuery := by
  intro args s h; unfold jobQuery; split; exacts [absurd rfl h, rfl]

theorem takesBytes_jobWatch (x : Port) : TakesBytes 10 (jobWatch x) := by
  intro args s h; unfold jobWatch; split; exacts [absurd rfl h, rfl]

theorem takesBytes_fetchBlock (x : Port) : TakesBytes 1 (fetchBlock x) := by
  intro args s h; unfold fetchBlock; split; exacts [absurd rfl h, rfl]

/-! ### Blocks whose length a count byte gives (11 Table 11-3) -/

/-- Bytes that are not twice the count are no run of that many 2-byte values. -/
theorem words16_length_ne {l : List Byte} {ws : List Word16} {n : Nat} (h : l.length ≠ 2 * n)
    (hw : words16 l = some ws) : ws.length ≠ n := by
  rintro rfl
  exact h (words16_length hw)

theorem ringWrite_short {x : Port} {args : List Byte} {s : State} (h : args.length < 2) :
    ringWrite x args s = none := by
  match args, h with
  | [], _ => rfl
  | [_], _ => rfl

theorem ringWrite_disagreeing {x : Port} {id n : Byte} {l : List Byte} {s : State}
    (h : l.length ≠ 2 * n.toNat) : ringWrite x (id :: n :: l) s = none := by
  cases hw : words16 l with
  | none => simp only [ringWrite, hw]
  | some ws => simp only [ringWrite, hw, if_pos (words16_length_ne h hw)]

theorem setData_short {x : Port} {args : List Byte} {s : State} (h : args.length < 3) :
    setData x args s = none := by
  match args, h with
  | [], _ => rfl
  | [_], _ => rfl
  | [_, _], _ => rfl

theorem setData_disagreeing {x : Port} {o0 o1 n : Byte} {l : List Byte} {s : State}
    (h : l.length ≠ 2 * n.toNat) : setData x (o0 :: o1 :: n :: l) s = none := by
  cases hw : words16 l with
  | none => simp only [setData, hw]
  | some ws => simp only [setData, hw, if_pos (words16_length_ne h hw)]

/-! ### BAD_LENGTH and BAD_KIND (11 R185) -/

/-- A block that finds the length wrong is not reached: the answer is BAD_LENGTH on the state as it stood. -/
theorem runCommand_refused {x : Port} {q code : Byte} {args : List Byte} {rest : List Command} {s : State}
    {act : List Byte → State → Option Answer} (h : NextIs x q (code :: args) rest s)
    (ha : act args (takeCommand x rest s) = none) :
    runCommand x code act s = answered x q .badLength code [] rest s := by
  rw [runCommand_badLength h ha, reply_same]

/-- The command with this code answers BAD_LENGTH to every argument length but this one. -/
def RefusesLength (x : Port) (row : Byte × Nat × Instr) : Prop :=
  ∀ (s : State) (q : Byte) (rest : List Command) (args : List Byte),
    NextIs x q (row.1 :: args) rest s → args.length ≠ row.2.1 →
    exec row.2.2 s = .next (answered x q .badLength row.1 [] rest s)

theorem TakesBytes.refuses {x : Port} {code : Byte} {n : Nat} {c : Instr}
    {act : List Byte → State → Option Answer} (hact : TakesBytes n act)
    (hexec : ∀ s, exec c s = .next (runCommand x code act s)) : RefusesLength x (code, n, c) :=
  fun s _ _ args h hlen =>
    (hexec s).trans (congrArg Host.Outcome.next (runCommand_refused h (hact args _ hlen)))

/-- A BYE that does not decode tears nothing down: it is an execution like any other (08 R147). -/
theorem bye_not_decodes {x : Port} {s : State} (h : byeDecodes x s = false) :
    bye x s = runCommand x 0x11 byeBlock s := by
  unfold bye runCommand
  cases execute x 0x11 byeBlock s with
  | none => rfl
  | some t => simp only [h, Bool.false_eq_true, if_false]

theorem byeDecodes_with_args {x : Port} {q code : Byte} {args : List Byte} {rest : List Command} {s : State}
    (h : NextIs x q (code :: args) rest s) (hlen : args.length ≠ 0) : byeDecodes x s = false := by
  simpa [byeDecodes, nextCommand_of_nextIs h] using hlen

theorem refusesLength_bye (x : Port) : RefusesLength x (0x11, 0, .bye x) := by
  intro s q rest args h hlen
  have hbye : bye x s = answered x q .badLength 0x11 [] rest s :=
    (bye_not_decodes (byeDecodes_with_args h hlen)).trans
      (runCommand_refused h (takesBytes_byeBlock args _ hlen))
  exact congrArg Host.Outcome.next hbye

/-- The commands with a fixed length: code, argument bytes and command (11 Table 11-3). -/
def fixedLengthCommands (x : Port) : List (Byte × Nat × Instr) :=
  [(0x11, 0, .bye x), (0x12, 0, .status x), (0x20, 4, .ringCreate x), (0x21, 1, .ringDelete x),
   (0x22, 1, .ringFlush x), (0x24, 8, .ringRead x), (0x25, 1, .ringQuery x), (0x30, 3, .setBegin x),
   (0x32, 2, .setEnd x), (0x33, 0, .setAbort x), (0x34, 1, .setDelete x), (0x35, 1, .setQuery x),
   (0x38, 0, .memQuery x), (0x40, 17, .jobDefine x), (0x41, 1, .jobArm x), (0x42, 1, .jobStart x),
   (0x43, 1, .jobCancel x), (0x44, 1, .jobDelete x), (0x45, 1, .jobQuery x), (0x46, 10, .jobWatch x),
   (0x50, 1, .fetch x)]

/-- Each of them refuses every other length, row by row of Table 11-3. -/
theorem fixedLengthCommands_refuse (x : Port) : ∀ row ∈ fixedLengthCommands x, RefusesLength x row := by
  simp only [fixedLengthCommands, List.forall_mem_cons]
  exact ⟨refusesLength_bye x,
    (takesBytes_statusBlock x).refuses fun _ => rfl,
    (takesBytes_ringCreate x).refuses fun _ => rfl,
    (takesBytes_ringDelete x).refuses fun _ => rfl,
    (takesBytes_ringFlush x).refuses fun _ => rfl,
    takesBytes_ringRead.refuses fun _ => rfl,
    takesBytes_ringQuery.refuses fun _ => rfl,
    (takesBytes_setBegin x).refuses fun _ => rfl,
    (takesBytes_setEnd x).refuses fun _ => rfl,
    (takesBytes_setAbort x).refuses fun _ => rfl,
    (takesBytes_setDelete x).refuses fun _ => rfl,
    takesBytes_setQuery.refuses fun _ => rfl,
    takesBytes_memQuery.refuses fun _ => rfl,
    (takesBytes_jobDefine x).refuses fun _ => rfl,
    (takesBytes_jobArm x).refuses fun _ => rfl,
    (takesBytes_jobStart x).refuses fun _ => rfl,
    (takesBytes_jobCancel x).refuses fun _ => rfl,
    (takesBytes_jobDelete x).refuses fun _ => rfl,
    takesBytes_jobQuery.refuses fun _ => rfl,
    (takesBytes_jobWatch x).refuses fun _ => rfl,
    (takesBytes_fetchBlock x).refuses fun _ => rfl,
    List.forall_mem_nil _⟩

/-- An unknown code reaches no block: the answer is BAD_KIND on the state as it stood. -/
theorem badKind_answered {x : Port} {q : Byte} {payload : List Byte} {rest : List Command} {s : State}
    (h : NextIs x q payload rest s) (hcode : codeOf payload ∉ commandCodes) :
    badKind x s = answered x q .badKind (codeOf payload) [] rest s := by
  simp only [badKind, nextCommand_of_nextIs h, if_neg hcode, reply_same]

/-! ### The session served next (08 R144) -/

theorem qualifies_iff (x : Port) (s : State) :
    qualifies x s = true ↔ (s.session x).queue ≠ [] ∧ (s.port x).fifo.length < 8 := by
  simp [qualifies, fifoRoom_iff]

theorem served_eq_none {s : State} (h : ∀ x, qualifies x s = false) : served s = none := by
  simp only [served, h]

/-- Settles O8: the fixed lengths row by row (`fixedLengthCommands_refuse`), the two lengths that a count byte
gives, the unknown code by `badKind_answered`, and the session served by `served_eq_some`. -/
theorem undecodedCommandsReachNoBlock : Obligations.UndecodedCommandsReachNoBlock := by
  refine ⟨fun s x q rest => ⟨fun code n c args hrow h hlen => ?fixed, fun args h hlen => ?ringWrite,
    fun args h hlen => ?setData⟩, fun s x q payload rest h hcode => ?badKind, fun s => ?served⟩
  case fixed => exact fixedLengthCommands_refuse x _ hrow s q rest args h hlen
  case ringWrite =>
    refine congrArg Host.Outcome.next (runCommand_refused h ?_)
    obtain hshort | ⟨id, n, l, rfl, hl⟩ := hlen
    · exact ringWrite_short hshort
    · exact ringWrite_disagreeing hl
  case setData =>
    refine congrArg Host.Outcome.next (runCommand_refused h ?_)
    obtain hshort | ⟨o0, o1, n, l, rfl, hl⟩ := hlen
    · exact setData_short hshort
    · exact setData_disagreeing hl
  case badKind => exact congrArg Host.Outcome.next (badKind_answered h hcode)
  case served =>
    refine ⟨fun x hx ho => ?only, fun x hx _ hlast => ?both, fun hnone => ?neither⟩
    case only =>
      exact served_eq_some ((qualifies_iff x s).mpr hx) fun hq => absurd ((qualifies_iff _ s).mp hq) ho
    case both => exact served_eq_some ((qualifies_iff x s).mpr hx) fun _ => hlast ▸ otherPort_ne x
    case neither =>
      exact served_eq_none fun x => Bool.eq_false_iff.mpr fun hq => hnone x ((qualifies_iff x s).mp hq)

end Sys2Proof.Machine
end

section
/-! SUPPORT. What a step can do, and the answer of every command (00, "How errors reach the host"). -/

namespace Sys2Proof.Machine

/-! ### The front of the queue -/

/-- Settles O1: a queue with a front leaves the step to `exec` alone. -/
theorem stepRunsTheFrontCommand : Obligations.StepRunsTheFrontCommand := by
  intro s c rest h
  rw [step, h]

/-! ### The answer of every command -/

theorem timed_answers_next (due : State → Option Nat) (act : State → State) (s : State) :
    ∃ t, timed due act s = .next t := by
  obtain ⟨n, -, -, hn⟩ | ⟨-, hn⟩ := timed_cases due act s
  · exact ⟨_, hn⟩
  · exact ⟨s, hn⟩

/-- A happening whose condition fails answers a next state too (log 2). -/
theorem ite_answers_next (p : Prop) [Decidable p] (u s : State) :
    ∃ t, (if p then Host.Outcome.next u else .next s) = Host.Outcome.next (φ := Fault) (ρ := Refusal) t := by
  split
  · exact ⟨u, rfl⟩
  · exact ⟨s, rfl⟩

theorem exec_answers_next (i : Instr) (s : State) : ∃ t, exec i s = .next t := by
  cases i with
  | frameResolution | frameLengthError | hello | deselect => exact ite_answers_next _ _ s
  | noticeTimerExpiry x => exact timed_answers_next (fun s => (s.session x).timer) (expire x) s
  | interByteGap | linkReset => exact timed_answers_next _ _ s
  | segmentEnd =>
    simp only [exec, execSegmentEnd]
    split
    · exact ite_answers_next _ _ s
    · exact ⟨s, rfl⟩
  | runEnd =>
    simp only [exec, execRunEnd]
    split
    · exact ite_answers_next _ s _
    · exact ⟨s, rfl⟩
  | transmitArbiterChoice p =>
    cases p with
    | u => exact ite_answers_next _ _ s
    | s => exact ⟨_, rfl⟩
  | transmissionEnd p =>
    cases p with
    | u =>
      simp only [exec, execTransmissionEnd]
      split <;> exact ⟨_, rfl⟩
    | s => exact ite_answers_next _ _ s
  | _ => exact ⟨_, rfl⟩

/-- What a step can do: a command takes place, on the state itself or with its queue's rest, or the millisecond
count advances (log 3). -/
theorem step_cases (s : State) :
    (∃ c l, step s = exec c { s with pending := l }) ∨ step s = .next (tick s) := by
  unfold step idle
  split
  · exact .inl ⟨_, _, rfl⟩
  · split
    · exact .inl ⟨_, s.pending, rfl⟩
    · exact .inr rfl

/-- Settles O3: each command by its own case (`exec_answers_next`), and a step by what it can do. -/
theorem everyCommandAndStepAnswersNext : Obligations.EveryCommandAndStepAnswersNext := by
  refine ⟨exec_answers_next, fun s => ?_⟩
  obtain ⟨c, l, h⟩ | h := step_cases s
  · rw [h]
    exact exec_answers_next c _
  · exact ⟨tick s, h⟩

end Sys2Proof.Machine
end

section
/-! SUPPORT. What leaves the contents of the two memories: all parts of the work but the storing of a sample and
of coefficients (01 R2, R3; 06 R105, R111). -/

namespace Sys2Proof.Machine

/-! ### The memories -/

/-- The contents of sample memory and of coefficient memory. -/
def State.memories (s : State) : Mem × Mem := (s.sampleMem, s.coefMem)

/-- The canonical form is one of the contents alone. -/
theorem MemoriesCanonical.of_same {s t : State} (hs : MemoriesCanonical s) (h : t.memories = s.memories) :
    MemoriesCanonical t := by
  obtain ⟨hsample, hcoef⟩ := Prod.mk.inj h
  rwa [MemoriesCanonical, hsample, hcoef]

/-- The memories stand in the surroundings, which no part of a teardown touches. -/
theorem memories_of_surroundings {s t : State} (h : t.surroundings = s.surroundings) :
    t.memories = s.memories := by
  simp only [State.surroundings, Prod.mk.injEq] at h
  obtain ⟨-, -, hsample, hcoef, -⟩ := h
  exact Prod.ext hsample hcoef

@[simp] theorem memories_putRing (s : State) (r : RingId) (v : Option Ring) :
    (s.putRing r v).memories = s.memories := rfl

@[simp] theorem memories_putJob (s : State) (j : JobId) (v : Option Job) :
    (s.putJob j v).memories = s.memories := rfl

@[simp] theorem memories_putCoef (s : State) (c : SetId) (v : Option CoefSet) :
    (s.putCoef c v).memories = s.memories := rfl

@[simp] theorem memories_modSession (s : State) (x : Port) (f : Session → Session) :
    (s.modSession x f).memories = s.memories := rfl

@[simp] theorem memories_modPort (s : State) (p : Port) (f : PortState → PortState) :
    (s.modPort p f).memories = s.memories := rfl

theorem memories_foldl {α : Type} {f : State → α → State} (h : ∀ s a, (f s a).memories = s.memories)
    (l : List α) (s : State) : (l.foldl f s).memories = s.memories := by
  induction l generalizing s with
  | nil => rfl
  | cons a l ih => exact (ih _).trans (h s a)

/-! ### The result unit (04) -/

@[simp] theorem memories_moveHeld (x : Port) (j : JobId) (rest : List JobId) (s : State) :
    (moveHeld x j rest s).memories = s.memories := by
  unfold moveHeld
  split
  · split <;> rfl
  · rfl

@[simp] theorem memories_heldMove (x : Port) (s : State) : (heldMove x s).memories = s.memories := by
  unfold heldMove
  generalize (s.session x).heldOrder = l
  induction l generalizing s with
  | nil => rfl
  | cons j rest ih =>
    unfold heldMoves
    split
    · rw [ih, memories_moveHeld]
    · rfl

@[simp] theorem memories_resultsCheck (x : Port) (before : List Record) (s : State) :
    (resultsCheck x before s).memories = s.memories := by
  rw [resultsCheck_eq]
  split
  · rfl
  · split <;> rfl

@[simp] theorem memories_purge (x : Port) (j : JobId) (s : State) : (purge x j s).memories = s.memories := by
  unfold purge
  simp only [memories_resultsCheck]
  split <;> simp

@[simp] theorem memories_removeOldest (x : Port) (k : Nat) (s : State) :
    (removeOldest x k s).memories = s.memories := by
  unfold removeOldest
  simp only [memories_resultsCheck]
  split <;> simp

@[simp] theorem memories_postResult (j : JobId) (b : Job) (r : Record) (s : State) :
    (postResult j b r s).memories = s.memories := by
  unfold postResult
  simp only
  split <;> simp

/-! ### The run scheduler (03) -/

@[simp] theorem memories_abandon (j : JobId) (b : Job) (s : State) : (abandon j b s).memories = s.memories :=
  memories_of_surroundings (surroundings_abandon j b s)

@[simp] theorem memories_startStep (s : State) : (startStep s).memories = s.memories := by
  unfold startStep
  cases s.psu with
  | some run => rfl
  | none =>
    cases nextToRun s with
    | none => rfl
    | some t =>
      simp only [startJob]
      cases s.job t.2 with
      | none => rfl
      | some b => simp only; cases runOf t.2 b <;> rfl

@[simp] theorem memories_segmentEnd (b : Job) (run : Run) (s : State) :
    (segmentEnd b run s).memories = s.memories := by
  unfold segmentEnd
  simp only
  split <;> rfl

@[simp] theorem memories_runEnd (b : Job) (run : Run) (s : State) : (runEnd b run s).memories = s.memories :=
  memories_postResult ..

/-! ### Evictions, triggers and countdowns (01 R11, R13; 02 R34 to R39) -/

@[simp] theorem memories_evictAll (r : RingId) (js : List JobId) (s : State) :
    (evictAll r js s).memories = s.memories := by
  refine memories_foldl (fun s j => ?_) js s
  unfold evict
  cases s.job j <;> simp

@[simp] theorem memories_evictOverwritten (r : RingId) (g : Ring) (s : State) :
    (evictOverwritten r g s).memories = s.memories := by
  unfold evictOverwritten
  split <;> simp

theorem memories_trigger (j : JobId) (b : Job) (head fill : Nat) (s : State) :
    (trigger j b head fill s).memories = s.memories := by
  unfold trigger
  split
  · rfl
  · cases b.state <;> rfl

@[simp] theorem memories_countdownStep (r : RingId) (head fill : Nat) (s : State) :
    (countdownStep r head fill s).memories = s.memories := by
  refine memories_foldl (fun s j => ?_) allJobs s
  unfold countdownJob
  cases s.job j with
  | none => rfl
  | some b =>
    simp only
    split
    · split
      · exact memories_trigger ..
      · rfl
    · rfl

/-! ### References, deletion and teardown (01 R7, 06 R107, 02 R45, 08 R149) -/

@[simp] theorem memories_refRing (r : RingId) (s : State) : (refRing r s).memories = s.memories := by
  unfold refRing
  cases s.ring r <;> rfl

@[simp] theorem memories_refSet (c : SetId) (s : State) : (refSet c s).memories = s.memories := by
  unfold refSet
  cases s.coef c <;> rfl

@[simp] theorem memories_freeRing (r : RingId) (s : State) : (freeRing r s).memories = s.memories :=
  memories_of_surroundings (surroundings_freeRing r s)

@[simp] theorem memories_freeSet (c : SetId) (s : State) : (freeSet c s).memories = s.memories :=
  memories_of_surroundings (surroundings_freeSet c s)

@[simp] theorem memories_unrefRing (r : RingId) (s : State) : (unrefRing r s).memories = s.memories :=
  memories_of_surroundings (surroundings_unrefRing r s)

@[simp] theorem memories_unrefSet (c : SetId) (s : State) : (unrefSet c s).memories = s.memories :=
  memories_of_surroundings (surroundings_unrefSet c s)

@[simp] theorem memories_endFire (j : JobId) (b : Job) (s : State) : (endFire j b s).memories = s.memories :=
  memories_of_surroundings (surroundings_endFire j b s)

@[simp] theorem memories_deleteJob (j : JobId) (s : State) : (deleteJob j s).memories = s.memories := by
  unfold deleteJob
  cases s.job j <;> simp

theorem memories_deleteOwned (x : Port) (s : State) (j : JobId) :
    (deleteOwned x s j).memories = s.memories := by
  unfold deleteOwned
  cases s.job j with
  | none => rfl
  | some b => simp only; split <;> simp

theorem memories_closeLoad (x : Port) (s : State) : (closeLoad x s).memories = s.memories := by
  unfold closeLoad
  cases (s.session x).load <;> simp

theorem memories_teardown (x : Port) (s : State) : (teardown x s).memories = s.memories := by
  rw [memories_of_surroundings (surroundings_teardown_of_jobsGone x s), jobsGone,
    memories_foldl (memories_deleteOwned x), memories_closeLoad]

@[simp] theorem memories_teardownIfOpen (x : Port) (s : State) :
    (teardownIfOpen x s).memories = s.memories := by
  unfold teardownIfOpen
  split
  · exact memories_teardown x s
  · rfl

/-! ### Sending and the transmitters (09 R157, R159; 10 R174 to R180) -/

theorem memories_reportClass (e : Entry) (s : State) : (reportClass e s).memories = s.memories := by
  unfold reportClass
  split
  · split
    · split <;> rfl
    · rfl
  · rfl

theorem memories_arbiter (p : Port) (s : State) : (arbiter p s).2.memories = s.memories := by
  unfold arbiter
  cases (s.port p).fifo with
  | cons f rest => rfl
  | nil =>
    cases offer p s with
    | again n => rfl
    | fresh e rest => exact memories_reportClass e s
    | nothing => rfl

@[simp] theorem memories_finish (s : State) : (finish s).memories = s.memories := by
  unfold finish askU
  cases (startStep s).txU with
  | some f => exact memories_startStep s
  | none => exact (memories_arbiter .u _).trans (memories_startStep s)

theorem memories_askS (s : State) : (askS s).memories = s.memories := by
  have h := memories_arbiter .s s
  unfold askS
  rcases ha : arbiter .s s with ⟨f, s'⟩
  rw [ha] at h
  cases f <;> exact h

theorem memories_noticeSent (x : Port) (f : Frame) (s : State) : (noticeSent x f s).memories = s.memories := by
  unfold noticeSent
  split <;> rfl

@[simp] theorem memories_endS (s : State) : (endS s).memories = s.memories := by
  unfold endS
  cases s.txS.current with
  | none => rfl
  | some o =>
    simp only
    split
    · exact memories_noticeSent ..
    · rfl

@[simp] theorem memories_startExchange (s : State) : (startExchange s).memories = s.memories := by
  have h : (select (endS s)).memories = s.memories := memories_endS s
  unfold startExchange
  simp only
  split
  · exact (memories_askS _).trans h
  · exact h

theorem memories_exchange (p : Port) (s : State) : (exchange p s).memories = s.memories := by
  cases p with
  | u => rfl
  | s =>
    simp only [exchange, exchangeS]
    split <;> exact memories_startExchange s

/-! ### Arrivals, bytes and timers (08 R133 to R141, 09 R160 to R163, 10 R168 to R173) -/

@[simp] theorem memories_placeIfRoom (x : Port) (f : Frame) (s : State) :
    (placeIfRoom x f s).memories = s.memories := by
  unfold placeIfRoom
  split <;> rfl

theorem memories_accept (x : Port) (f : Frame) (s : State) : (accept x f s).memories = s.memories := by
  unfold accept
  simp only
  split
  · split
    · rfl
    · simp
  · split
    · rfl
    · split <;> simp

theorem memories_arriveAck (x : Port) (f : Frame) (s : State) : (arriveAck x f s).memories = s.memories := by
  unfold arriveAck
  split
  · cases younger f.seq (s.session x).inFlight <;> rfl
  · rfl

theorem memories_arriveHello (x : Port) (f : Frame) (s : State) :
    (arriveHello x f s).memories = s.memories := by
  unfold arriveHello
  split
  · unfold takeHello
    simp only
    split
    · iterate 3 (split; · rfl)
      exact memories_teardownIfOpen x s
    · rfl
  · rfl

theorem memories_arriveCommand (x : Port) (f : Frame) (s : State) :
    (arriveCommand x f s).memories = s.memories := by
  unfold arriveCommand
  split
  · exact memories_arriveHello x f s
  · split
    · exact memories_accept x f s
    · exact memories_placeIfRoom ..

theorem memories_resolve (p : Port) (f : Frame) (good : Bool) (s : State) :
    (resolve p f good s).memories = s.memories := by
  unfold resolve
  split
  · rfl
  · split
    · exact memories_arriveCommand p f s
    · split
      · exact memories_arriveAck p f s
      · split <;> rfl

@[simp] theorem memories_deliver (p : Port) (b : Byte) (s : State) : (deliver p b s).memories = s.memories := by
  have hnote : (noteByteU p (exchange p s)).memories = s.memories := by
    rw [← memories_exchange p s]
    cases p <;> rfl
  unfold deliver
  simp only
  split
  · exact hnote
  · exact hnote
  · exact (memories_resolve ..).trans hnote

theorem memories_expire (x : Port) (s : State) : (expire x s).memories = s.memories := by
  unfold expire
  split
  · rfl
  · exact memories_teardownIfOpen x s

theorem memories_hear (p : Port) (b : Byte) (s : State) : (hear p b s).memories = s.memories := by
  unfold hear
  simp only
  split
  · rcases expireOverdue_cases p (finish (deliver p b s)) with ⟨-, he⟩ | ⟨-, he⟩ <;>
      simp [he, memories_expire]
  · simp

theorem memories_breakPartial (p : Port) (s : State) : (breakPartial p s).memories = s.memories := by
  unfold breakPartial
  split <;> rfl

theorem memories_linkReset (s : State) : (linkReset s).memories = s.memories :=
  memories_teardownIfOpen .u (s.modPort .u fun q => { q with rx := .hunt })

theorem memories_timed {due : State → Option Nat} {act : State → State}
    (hact : ∀ u, (act u).memories = u.memories) {s t : State} (h : timed due act s = .next t) :
    t.memories = s.memories := by
  obtain ⟨n, -, -, hn⟩ | ⟨-, hn⟩ := timed_cases due act s <;> rw [hn] at h <;> cases h
  · rw [memories_finish, hact]
    exact memories_endS s
  · rfl

end Sys2Proof.Machine
end

section
/-! SUPPORT. Every command but reset, SAMPLE_ARRIVAL, RING_WRITE and SET_DATA leaves the contents of both
memories, and these four keep their canonical form (log 8). -/

namespace Sys2Proof.Machine

/-! ### The blocks of the commands -/

/-- A block whose answer leaves the memories. -/
def LeavesMemories (act : List Byte → State → Option Answer) : Prop :=
  ∀ args s a, act args s = some a → a.state.memories = s.memories

theorem ChangesNothing.leavesMemories {act : List Byte → State → Option Answer} (h : ChangesNothing act) :
    LeavesMemories act := fun args s a ha => by rw [h args s a ha]

/-! A refusal leaves the state, so only what stands behind a block's last check matters. -/

theorem ringCreate_leavesMemories (x : Port) : LeavesMemories (ringCreate x) := by
  intro args s a h
  unfold ringCreate at h
  split at h <;> cases h
  simp only
  iterate 6 (split; · rfl)
  unfold bindSource
  split <;> rfl

theorem ringDelete_leavesMemories (x : Port) : LeavesMemories (ringDelete x) := by
  intro args s a h
  unfold ringDelete at h
  split at h <;> cases h
  simp only
  iterate 4 (split; · rfl)
  exact memories_freeRing ..

theorem ringFlush_leavesMemories (x : Port) : LeavesMemories (ringFlush x) := by
  intro args s a h
  unfold ringFlush at h
  split at h <;> cases h
  simp only
  iterate 3 (split; · rfl)
  exact memories_evictAll ..

theorem setBegin_leavesMemories (x : Port) : LeavesMemories (setBegin x) := by
  intro args s a h
  unfold setBegin at h
  split at h <;> cases h
  simp only
  iterate 5 (split; · rfl)
  rfl

theorem setEnd_leavesMemories (x : Port) : LeavesMemories (setEnd x) := by
  intro args s a h
  unfold setEnd at h
  split at h <;> cases h
  simp only
  iterate 3 (split; · rfl)
  split <;> rfl

theorem setAbort_leavesMemories (x : Port) : LeavesMemories (setAbort x) := by
  intro args s a h
  unfold setAbort at h
  split at h <;> cases h
  split
  · rfl
  · exact memories_freeSet ..

theorem setDelete_leavesMemories (x : Port) : LeavesMemories (setDelete x) := by
  intro args s a h
  unfold setDelete at h
  split at h <;> cases h
  simp only
  iterate 5 (split; · rfl)
  exact memories_freeSet ..

theorem jobDefine_leavesMemories (x : Port) : LeavesMemories (jobDefine x) := by
  intro args s a h
  unfold jobDefine at h
  split at h <;> cases h
  simp only
  iterate 3 (split; · rfl)
  split
  · simp [defineNew]
  · simp [redefine]

theorem jobArm_leavesMemories (x : Port) : LeavesMemories (jobArm x) := by
  intro args s a h
  unfold jobArm at h
  split at h <;> cases h
  simp only
  iterate 3 (split; · rfl)
  rfl

theorem jobStart_leavesMemories (x : Port) : LeavesMemories (jobStart x) := by
  intro args s a h
  unfold jobStart at h
  split at h <;> cases h
  simp only
  iterate 3 (split; · rfl)
  rfl

theorem jobCancel_leavesMemories (x : Port) : LeavesMemories (jobCancel x) := by
  intro args s a h
  unfold jobCancel at h
  split at h <;> cases h
  simp only
  split
  · rfl
  · exact memories_abandon ..

theorem jobDelete_leavesMemories (x : Port) : LeavesMemories (jobDelete x) := by
  intro args s a h
  unfold jobDelete at h
  split at h <;> cases h
  split
  · rfl
  · exact memories_deleteJob ..

theorem jobWatch_leavesMemories (x : Port) : LeavesMemories (jobWatch x) := by
  intro args s a h
  unfold jobWatch at h
  split at h <;> cases h
  simp only
  iterate 4 (split; · rfl)
  rfl

theorem fetchBlock_leavesMemories (x : Port) : LeavesMemories (fetchBlock x) := by
  intro args s a h
  unfold fetchBlock at h
  split at h <;> cases h
  simp only
  split
  · rfl
  · exact memories_removeOldest ..

/-! ### The execution of a command (08 R143 to R147) -/

/-- What an execution can do to the memories: what its block does, or nothing (08 R145). -/
theorem memories_execute_cases {x : Port} {code : Byte} {act : List Byte → State → Option Answer}
    {s t : State} (h : execute x code act s = some t) :
    (∃ args u a, u.memories = s.memories ∧ act args u = some a ∧ t.memories = a.state.memories) ∨
    t.memories = s.memories := by
  unfold execute at h
  split at h
  · rename_i c rest _
    split at h
    · simp only at h
      split at h <;> cases h
      · rename_i a ha
        exact .inl ⟨c.payload.tail, takeCommand x rest s, a, rfl, ha, rfl⟩
      · exact .inr rfl
    · cases h
  · cases h

theorem memories_runCommand_cases (x : Port) (code : Byte) (act : List Byte → State → Option Answer)
    (s : State) :
    (∃ args u a, u.memories = s.memories ∧ act args u = some a ∧
      (runCommand x code act s).memories = a.state.memories) ∨
    (runCommand x code act s).memories = s.memories := by
  unfold runCommand
  cases h : execute x code act s with
  | none => exact .inr rfl
  | some t =>
    simp only [memories_finish]
    exact memories_execute_cases h

theorem memories_execute {x : Port} {code : Byte} {act : List Byte → State → Option Answer}
    (hact : LeavesMemories act) {s t : State} (h : execute x code act s = some t) :
    t.memories = s.memories := by
  obtain ⟨args, u, a, hu, ha, ht⟩ | ht := memories_execute_cases h
  · rw [ht, hact args u a ha, hu]
  · exact ht

theorem memories_runCommand {act : List Byte → State → Option Answer} (hact : LeavesMemories act)
    (x : Port) (code : Byte) (s : State) : (runCommand x code act s).memories = s.memories := by
  obtain ⟨args, u, a, hu, ha, ht⟩ | ht := memories_runCommand_cases x code act s
  · rw [ht, hact args u a ha, hu]
  · exact ht

theorem memories_badKind (x : Port) (s : State) : (badKind x s).memories = s.memories := by
  unfold badKind
  cases nextCommand x s with
  | none => rfl
  | some cr =>
    simp only
    split
    · rfl
    · exact memories_finish _

theorem memories_bye (x : Port) (s : State) : (bye x s).memories = s.memories := by
  unfold bye
  cases h : execute x 0x11 byeBlock s with
  | none => rfl
  | some t =>
    have ht := memories_execute byeBlock_changesNothing.leavesMemories h
    simp only [memories_finish]
    split
    · rw [memories_teardown, ht]
    · exact ht

/-! ### The commands that leave the memories -/

/-- The commands that may change what a memory holds: reset, and samples and coefficients that arrive. -/
def fillsMemory : Instr → Bool
  | .rstn _ _ | .sampleArrival _ | .ringWrite _ | .setData _ => true
  | _ => false

/-- A happening whose condition fails leaves the state (log 2). -/
theorem memories_ite {p : Prop} [Decidable p] {s t u : State} (hu : u.memories = s.memories)
    (h : (if p then Host.Outcome.next u else .next s) = Host.Outcome.next (φ := Fault) (ρ := Refusal) t) :
    t.memories = s.memories := by
  split at h <;> cases h
  · exact hu
  · rfl

theorem memories_runHappening {s t : State} (h : execSegmentEnd s = .next t ∨ execRunEnd s = .next t) :
    t.memories = s.memories := by
  unfold execSegmentEnd execRunEnd at h
  cases hf : inFlightRun s with
  | none => simp only [hf, or_self] at h; cases h; rfl
  | some rb =>
    simp only [hf] at h
    rcases h with h | h
    · exact memories_ite (by simp) h
    · rw [← ite_not] at h
      exact memories_ite (by simp) h

/-- Every command but those that fill a memory leaves both. -/
theorem memories_exec {i : Instr} {s t : State} (hi : fillsMemory i = false) (h : exec i s = .next t) :
    t.memories = s.memories := by
  have run : ∀ {act x code}, LeavesMemories act →
      Host.Outcome.next (φ := Fault) (ρ := Refusal) (runCommand x code act s) = .next t →
      t.memories = s.memories := fun hact h => by
    cases h
    exact memories_runCommand hact _ _ s
  cases i with
  | rstn | sampleArrival | ringWrite | setData => cases hi
  | segmentEnd => exact memories_runHappening (.inl h)
  | runEnd => exact memories_runHappening (.inr h)
  | frameResolution p last => exact memories_ite (memories_hear p last s) h
  | frameLengthError p len => exact memories_ite (by simp) h
  | hello p last => exact memories_ite (by simp) h
  | badKind x => cases h; exact memories_badKind x s
  | bye x => cases h; exact memories_bye x s
  | status x => exact run (statusBlock_changesNothing x).leavesMemories h
  | ringCreate x => exact run (ringCreate_leavesMemories x) h
  | ringDelete x => exact run (ringDelete_leavesMemories x) h
  | ringFlush x => exact run (ringFlush_leavesMemories x) h
  | ringRead x => exact run ringRead_changesNothing.leavesMemories h
  | ringQuery x => exact run ringQuery_changesNothing.leavesMemories h
  | setBegin x => exact run (setBegin_leavesMemories x) h
  | setEnd x => exact run (setEnd_leavesMemories x) h
  | setAbort x => exact run (setAbort_leavesMemories x) h
  | setDelete x => exact run (setDelete_leavesMemories x) h
  | setQuery x => exact run setQuery_changesNothing.leavesMemories h
  | memQuery x => exact run memQuery_changesNothing.leavesMemories h
  | jobDefine x => exact run (jobDefine_leavesMemories x) h
  | jobArm x => exact run (jobArm_leavesMemories x) h
  | jobStart x => exact run (jobStart_leavesMemories x) h
  | jobCancel x => exact run (jobCancel_leavesMemories x) h
  | jobDelete x => exact run (jobDelete_leavesMemories x) h
  | jobQuery x => exact run jobQuery_changesNothing.leavesMemories h
  | jobWatch x => exact run (jobWatch_leavesMemories x) h
  | fetch x => exact run (fetchBlock_leavesMemories x) h
  | transmitArbiterChoice p =>
    cases p with
    | u => exact memories_ite (memories_finish s) h
    | s => cases h; simp
  | transmissionEnd p =>
    cases p with
    | u =>
      simp only [exec, execTransmissionEnd] at h
      split at h <;> cases h
      · exact (memories_finish _).trans (memories_noticeSent ..)
      · rfl
    | s => exact memories_ite (by simp) h
  | noticeTimerExpiry x => exact memories_timed (due := fun s => (s.session x).timer) (memories_expire x) h
  | framingError counted => cases h; exact (memories_finish _).trans (memories_breakPartial .u s)
  | interByteGap => exact memories_timed (act := dropPartial .u) (fun _ => rfl) h
  | linkReset => exact memories_timed memories_linkReset h
  | deselect =>
    have hdrop : (breakPartial .s (deselect (endS s))).memories = s.memories :=
      (memories_breakPartial .s _).trans (memories_endS s)
    exact memories_ite ((memories_finish _).trans hdrop) h
  | byteDelivered p b => cases h; exact memories_hear p b s

/-! ### The writes (01 R2, R3, R12 to R15; 06 R111) -/

theorem memoriesCanonical_writeSample {s : State} (hs : MemoriesCanonical s) (r : RingId) (g : Ring)
    (v : Word16) : MemoriesCanonical (writeSample r g v s) := by
  obtain ⟨hsample, hcoef⟩ := hs
  have hwritten : MemoriesCanonical
      { s with sampleMem := s.sampleMem.write (g.base + g.head % g.capacity) v } :=
    ⟨Mem.wf_write _ _ _ hsample, hcoef⟩
  exact hwritten.of_same (memories_countdownStep ..)

theorem memoriesCanonical_writeSamples {s : State} (hs : MemoriesCanonical s) (r : RingId)
    (ws : List Word16) (n : Nat) : MemoriesCanonical (writeSamples r ws n s).2 := by
  induction ws generalizing n s with
  | nil => exact hs
  | cons v ws ih =>
    unfold writeSamples
    cases s.ring r with
    | none => exact hs
    | some g =>
      simp only
      split
      · exact ih (memoriesCanonical_writeSample hs r g v) _
      · exact hs

theorem memoriesCanonical_sampleArrival {s : State} (hs : MemoriesCanonical s) (c : ChannelId)
    (v : Word16) : MemoriesCanonical (sampleArrival c v s) := by
  unfold sampleArrival
  cases s.binding c with
  | none => exact hs
  | some r =>
    simp only
    cases s.ring r with
    | none => exact hs
    | some g =>
      have hevicted := hs.of_same (memories_evictOverwritten r g s)
      simp only
      split
      · exact (memoriesCanonical_writeSample hevicted r g v).of_same (memories_finish _)
      · exact hs

theorem memoriesCanonical_clockSample {s : State} (hs : MemoriesCanonical s) (t : SpPeriod) :
    MemoriesCanonical (clockSample s t) := by
  unfold clockSample
  split
  · exact hs
  · split
    · exact hs
    · simp only
      split
      · exact hs
      · exact memoriesCanonical_sampleArrival (s := { s with spWord := [] }) hs _ _

theorem memoriesCanonical_clockSamples {s : State} (hs : MemoriesCanonical s) (l : List SpPeriod) :
    MemoriesCanonical (l.foldl clockSample s) := by
  induction l generalizing s with
  | nil => exact hs
  | cons t l ih => exact ih (memoriesCanonical_clockSample hs t)

/-- A block that keeps the canonical form. -/
def KeepsCanonical (act : List Byte → State → Option Answer) : Prop :=
  ∀ args s a, act args s = some a → MemoriesCanonical s → MemoriesCanonical a.state

theorem ringWrite_keepsCanonical (x : Port) : KeepsCanonical (ringWrite x) := by
  intro args s a h hs
  unfold ringWrite at h
  split at h
  · split at h
    · cases h
    · split at h <;> cases h
      simp only
      iterate 5 (split; · exact hs)
      exact memoriesCanonical_writeSamples hs ..
  · cases h

theorem setData_keepsCanonical (x : Port) : KeepsCanonical (setData x) := by
  intro args s a h hs
  unfold setData at h
  split at h
  · split at h
    · cases h
    · split at h <;> cases h
      simp only
      iterate 4 (split; · exact hs)
      split
      · obtain ⟨hsample, hcoef⟩ := hs
        exact ⟨hsample, Mem.wf_writeAll _ _ _ hcoef⟩
      · split <;> exact hs
  · cases h

theorem memoriesCanonical_runCommand {s : State} (hs : MemoriesCanonical s)
    {act : List Byte → State → Option Answer} (hact : KeepsCanonical act) (x : Port) (code : Byte) :
    MemoriesCanonical (runCommand x code act s) := by
  obtain ⟨args, u, a, hu, ha, ht⟩ | ht := memories_runCommand_cases x code act s
  · exact (hact args u a ha (hs.of_same hu)).of_same ht
  · exact hs.of_same ht

/-! ### Every step -/

theorem memoriesCanonical_exec {i : Instr} {s t : State} (hs : MemoriesCanonical s)
    (h : exec i s = .next t) : MemoriesCanonical t := by
  cases hi : fillsMemory i with
  | false => exact hs.of_same (memories_exec hi h)
  | true =>
    cases i with
    | rstn baud lines => cases h; exact ⟨rfl, rfl⟩
    | sampleArrival periods => cases h; exact memoriesCanonical_clockSamples hs periods
    | ringWrite x => cases h; exact memoriesCanonical_runCommand hs (ringWrite_keepsCanonical x) x _
    | setData x => cases h; exact memoriesCanonical_runCommand hs (setData_keepsCanonical x) x _
    | _ => cases hi

/-- Settles O60: reset empties the memories, a sample and SET_DATA write cell by cell (`Mem.wf_write`), and every
other command leaves both (`memories_exec`). -/
theorem stepKeepsTheMemoriesCanonical : Obligations.StepKeepsTheMemoriesCanonical := by
  intro s t hs h
  obtain ⟨c, l, hc⟩ | htick := step_cases s
  · have hpop : MemoriesCanonical { s with pending := l } := hs
    exact memoriesCanonical_exec hpop (hc.symm.trans h)
  · cases htick.symm.trans h
    exact hs

end Sys2Proof.Machine
end
